-- ==== Sys2Proof/Word.lean ====
section
/-! DEFINITION. The word types of the engine (00_scope.md R10, R11, R13). -/

namespace Sys2Proof

/-- A 32-bit word; its arithmetic wraps modulo 2^32 and raises nothing (R11). -/
abbrev Word := BitVec 32

/-- One byte, a natural number in [0,255] (R10). -/
abbrev Byte := BitVec 8

/-- The 64 bits of an IEEE 754 binary64 value (R13). -/
abbrev F64 := BitVec 64

end Sys2Proof
end

