-- ==== Sys2Proof/Machine/Float.lean ====
section
/-! DEFINITION. IEEE 754 binary64 arithmetic with rounding to nearest, ties to even
(00_scope.md R13). Every finite value is a whole number of units of 2^-1074, so an exact sum or
product is a ratio of whole numbers and each operation is one rounding of that ratio. -/

namespace Sys2Proof.Machine

/-- The exponent field, bits 62:52. -/
def f64Exponent (w : F64) : Nat := w.toNat % 2 ^ 63 / 2 ^ 52

/-- The fraction field, bits 51:0. -/
def f64Fraction (w : F64) : Nat := w.toNat % 2 ^ 52

/-- The value is finite: neither an infinity nor a NaN. -/
def f64Finite (w : F64) : Bool := f64Exponent w < 0x7FF

/-- The value is a NaN. -/
def f64IsNaN (w : F64) : Bool := f64Exponent w == 0x7FF && f64Fraction w != 0

/-- The magnitude of a finite value, in units of 2^-1074. -/
def f64Units (w : F64) : Nat :=
  if f64Exponent w = 0 then f64Fraction w
  else (2 ^ 52 + f64Fraction w) * 2 ^ (f64Exponent w - 1)

/-- A finite value with its sign, in units of 2^-1074. -/
def f64Signed (w : F64) : Int := if w.msb then -(f64Units w : Int) else f64Units w

/-- How many bits a natural number has; 0 has none. -/
def bitLength (n : Nat) : Nat := if n = 0 then 0 else Nat.log2 n + 1

/-- A quotient rounded to the nearest whole number, ties to the even one. -/
def divNearestEven (num den : Nat) : Nat :=
  if 2 * (num % den) > den ∨ (2 * (num % den) = den ∧ num / den % 2 = 1) then num / den + 1
  else num / den

/-- The sign bit as a number. -/
def f64SignBit (neg : Bool) : Nat := if neg then 2 ^ 63 else 0

/-- The binary64 value nearest to `num / den` units of 2^-1074, with the given sign. With `t` the
number of low bits that do not fit in 53, the rounded significand `k` times `2^t` has the bits
`t * 2^52 + k`, for subnormals, for normals and when rounding carries into the next exponent;
a value at or above 2^1024 becomes an infinity. -/
def f64Round (neg : Bool) (num den : Nat) : F64 :=
  let t := bitLength (num / den) - 53
  let k := divNearestEven num (den * 2 ^ t)
  BitVec.ofNat 64 (f64SignBit neg + min (t * 2 ^ 52 + k) (0x7FF * 2 ^ 52))

/-- The NaN an invalid operation answers; no rule lets its bits be seen (notes/assumptions/15.md). -/
def f64NaN : F64 := 0x7FF8000000000000#64

/-- An infinity. -/
def f64Inf (neg : Bool) : F64 := BitVec.ofNat 64 (f64SignBit neg + 0x7FF * 2 ^ 52)

/-- The negated value. -/
def f64Neg (w : F64) : F64 := w ^^^ 0x8000000000000000#64

/-- The correctly rounded product (R13). -/
def fmul (x y : F64) : F64 :=
  if f64Finite x && f64Finite y then
    f64Round (x.msb ^^ y.msb) (f64Units x * f64Units y) (2 ^ 1074)
  else if f64IsNaN x || f64IsNaN y then f64NaN
  else if f64Finite x && f64Units x == 0 || f64Finite y && f64Units y == 0 then f64NaN
  else f64Inf (x.msb ^^ y.msb)

/-- The correctly rounded sum (R13). An exact zero sum is +0 unless both terms are negative. -/
def fadd (x y : F64) : F64 :=
  if f64Finite x && f64Finite y then
    let z := f64Signed x + f64Signed y
    f64Round (if z = 0 then x.msb && y.msb else decide (z < 0)) z.natAbs 1
  else if f64IsNaN x || f64IsNaN y then f64NaN
  else if f64Finite x then y
  else if f64Finite y then x
  else if x.msb == y.msb then x
  else f64NaN

/-- The correctly rounded difference (R13). -/
def fsub (x y : F64) : F64 := fadd x (f64Neg y)

/-- `f64("d")`: the binary64 value nearest to the decimal literal `digits / 10^places` (R13). -/
def f64Dec (digits places : Nat) : F64 := f64Round false (digits * 2 ^ 1074) (10 ^ places)

/-- `f64(n)`: the binary64 value of a natural number, exact up to 2^53 (R13). -/
def f64OfNat (n : Nat) : F64 := f64Dec n 0

/-- `floor` of a finite binary64 value, exact (R12, R13). -/
def f64Floor (w : F64) : Int := f64Signed w / (2 ^ 1074 : Nat)

/-- `floor(w) mod m` with the floored modulo, in [0, m) (R12). -/
def f64FloorMod (w : F64) (m : Nat) : Nat := (f64Floor w % (m : Int)).toNat

end Sys2Proof.Machine
end

