-- ==== Sys2Proof/Machine/HenonMap.lean ====
section
/-! DEFINITION. The Henon orbit and the 32 cells it yields (44_henon.md R165 to R168). -/

namespace Sys2Proof.Machine

/-- One step of the orbit, both coordinates from the old ones (R166). -/
def henonNext (a b : F64) (x y : F64) : F64 × F64 :=
  (fadd (fsub (f64OfNat 1) (fmul a (fmul x x))) y, fmul b x)

/-- The x coordinates after each of `n` steps from `(x, y)`, in order (R167). -/
def henonOrbit (a b : F64) : Nat → F64 → F64 → List F64
  | 0, _, _ => []
  | n + 1, x, y =>
    let p := henonNext a b x y
    p.1 :: henonOrbit a b n p.1 p.2

/-- The 32 x coordinates from the start coordinate (0.1, 0.1) (R165). -/
def henonXs (a b : F64) : List F64 := henonOrbit a b 32 (f64Dec 1 1) (f64Dec 1 1)

/-- The cell of an orbit value: `floor(x * range) mod 16` (R167). -/
def henonCell (range x : F64) : BitVec 4 := BitVec.ofNat 4 (f64FloorMod (fmul x range) 16)

/-- The 32 cells, row by row: cell `k` is row `k div 8`, column `k mod 8` (R167). -/
def henonCells (a b range : F64) : List (BitVec 4) := (henonXs a b).map (henonCell range)

/-- The configuration is a legal build: the parameters, every orbit value and every product are
finite (R168). -/
def henonLegal (a b range : F64) : Bool :=
  f64Finite a && f64Finite b && f64Finite range &&
    (henonXs a b).all fun x => f64Finite x && f64Finite (fmul x range)

theorem henonOrbit_length (a b : F64) (n : Nat) (x y : F64) :
    (henonOrbit a b n x y).length = n := by
  induction n generalizing x y with
  | zero => rfl
  | succ n ih => simp [henonOrbit, ih]

theorem henonCells_length (a b range : F64) : (henonCells a b range).length = 32 := by
  simp [henonCells, henonXs, henonOrbit_length]

end Sys2Proof.Machine
end

