-- ==== Sys2Proof/Config.lean ====
section
/-! DEFINITION. What a build of the engine fixes (00_scope.md R8, R9), and the free values: the
values the spec leaves open, which are constants with no body, so that nothing can be proved
about which value they are. -/

namespace Sys2Proof

/-- Which bytes of an over-long cube sum survive, CUBE_TRUNC (42_cubic_sum.md R137). -/
inductive CubeTrunc where
  | keepLow
  | keepHigh
  deriving DecidableEq, Repr, Inhabited

/-- The Henon parameters HENON_A, HENON_B and HENON_RANGE. A triple that fails R168 is no legal
build and no value of this type. -/
structure HenonParams where
  a : F64
  b : F64
  range : F64
  legal : Machine.henonLegal a b range = true
  deriving DecidableEq, Repr

/-- The parameters of R8, each within its legal values. -/
structure Config where
  /-- ADDR_BITS, the width of the byte offset. -/
  addrBits : Nat
  /-- MSG_BUF_BYTES, the capacity of MSGBUF. -/
  msgBufBytes : Nat
  /-- HENON_A, HENON_B, HENON_RANGE. -/
  henon : HenonParams
  /-- FINAL_SBOX, any 256 bytes. -/
  finalSbox : Vector Byte 256
  /-- CUBE_TRUNC. -/
  cubeTrunc : CubeTrunc
  addrBits_legal : 13 ≤ addrBits ∧ addrBits ≤ 32
  msgBufBytes_legal : msgBufBytes % 4 = 0 ∧ 4 ≤ msgBufBytes ∧ msgBufBytes + 0x1000 ≤ 2 ^ addrBits
  deriving DecidableEq, Repr

/-- The same parameters before any check of their legality. -/
structure RawConfig where
  addrBits : Nat
  msgBufBytes : Nat
  henonA : F64
  henonB : F64
  henonRange : F64
  finalSbox : Vector Byte 256
  cubeTrunc : CubeTrunc
  deriving Inhabited

/-- The legal configuration a raw one is, if it is one: the model refuses every other (R8, R168). -/
def RawConfig.legal? (r : RawConfig) : Option Config :=
  if hh : Machine.henonLegal r.henonA r.henonB r.henonRange = true then
    if ha : 13 ≤ r.addrBits ∧ r.addrBits ≤ 32 then
      if hm : r.msgBufBytes % 4 = 0 ∧ 4 ≤ r.msgBufBytes ∧ r.msgBufBytes + 0x1000 ≤ 2 ^ r.addrBits then
        some ⟨r.addrBits, r.msgBufBytes, ⟨r.henonA, r.henonB, r.henonRange, hh⟩, r.finalSbox,
          r.cubeTrunc, ha, hm⟩
      else none
    else none
  else none

theorem henonLegal_zero : Machine.henonLegal 0#64 0#64 0#64 = true := by decide +kernel

/-- The least legal build: it only shows that a legal build exists. -/
def Config.least : Config :=
  ⟨13, 4, ⟨0#64, 0#64, 0#64, henonLegal_zero⟩, Vector.replicate 256 0#8, .keepLow,
    by decide, by decide⟩

/-- Free value: what the build of this engine was asked to be. -/
opaque Config.raw : RawConfig

/-- The configuration this engine was built with: some legal one, and nothing says which
(R8: no source gives the values; notes/assumptions/1.md). -/
def Config.built : Config := Config.raw.legal?.getD Config.least

/-- Free value: how many host events come before the sequencer's next step (R262, I16). -/
opaque Config.gapDraw : Nat → Nat

/-- Free value: what a read of HSTATE returns while BUSY = 1, fresh at each read (R33, I6). -/
opaque Config.hstateDraw : Nat → Word

/-- Free value: the data of a read answered ERROR, fresh at each read (R63, I7). -/
opaque Config.errorDraw : Nat → Word

/-- Free value: the byte a MSGBUF address holds from a hard reset until the host writes it, by
the number of that reset and the address (R69, I8). -/
opaque Config.unwrittenByte : Nat → Nat → Byte

/-- Free value: the byte WORK holds at an address above its stream; no run reads one (R47, R79). -/
opaque Config.workByte : Nat → Byte

/-- Free value: the digit of a character that is no hex digit; CHECK lets none reach PAD (R96). -/
opaque Config.nonHexDigit : Byte → BitVec 4

/-- Row `r` of the final substitution table of the reference configuration (45_final_sbox.md R186). -/
def rcSboxRows : List (List Byte) :=
  [[0x63, 0x7c, 0x77, 0x7b, 0xf2, 0x6b, 0x6f, 0xc5, 0x30, 0x01, 0x67, 0x2b, 0xfe, 0xd7, 0xab, 0x76]] ++
  [[0xca, 0x82, 0xc9, 0x7d, 0xfa, 0x59, 0x47, 0xf0, 0xad, 0xd4, 0xa2, 0xaf, 0x9c, 0xa4, 0x72, 0xc0]] ++
  [[0xb7, 0xfd, 0x93, 0x26, 0x36, 0x3f, 0xf7, 0xcc, 0x34, 0xa5, 0xe5, 0xf1, 0x71, 0xd8, 0x31, 0x15]] ++
  [[0x04, 0xc7, 0x23, 0xc3, 0x18, 0x96, 0x05, 0x9a, 0x07, 0x12, 0x80, 0xe2, 0xeb, 0x27, 0xb2, 0x75]] ++
  [[0x09, 0x83, 0x2c, 0x1a, 0x1b, 0x6e, 0x5a, 0xa0, 0x52, 0x3b, 0xd6, 0xb3, 0x29, 0xe3, 0x2f, 0x84]] ++
  [[0x53, 0xd1, 0x00, 0xed, 0x20, 0xfc, 0xb1, 0x5b, 0x6a, 0xcb, 0xbe, 0x39, 0x4a, 0x4c, 0x58, 0xcf]] ++
  [[0xd0, 0xef, 0xaa, 0xfb, 0x43, 0x4d, 0x33, 0x85, 0x45, 0xf9, 0x02, 0x7f, 0x50, 0x3c, 0x9f, 0xa8]] ++
  [[0x51, 0xa3, 0x40, 0x8f, 0x92, 0x9d, 0x38, 0xf5, 0xbc, 0xb6, 0xda, 0x21, 0x10, 0xff, 0xf3, 0xd2]] ++
  [[0xcd, 0x0c, 0x13, 0xec, 0x5f, 0x97, 0x44, 0x17, 0xc4, 0xa7, 0x7e, 0x3d, 0x64, 0x5d, 0x19, 0x73]] ++
  [[0x60, 0x81, 0x4f, 0xdc, 0x22, 0x2a, 0x90, 0x88, 0x46, 0xee, 0xb8, 0x14, 0xde, 0x5e, 0x0b, 0xdb]] ++
  [[0xe0, 0x32, 0x3a, 0x0a, 0x49, 0x06, 0x24, 0x5c, 0xc2, 0xd3, 0xac, 0x62, 0x91, 0x95, 0xe4, 0x79]] ++
  [[0xe7, 0xc8, 0x37, 0x6d, 0x8d, 0xd5, 0x4e, 0xa9, 0x6c, 0x56, 0xf4, 0xea, 0x65, 0x7a, 0xae, 0x08]] ++
  [[0xba, 0x78, 0x25, 0x2e, 0x1c, 0xa6, 0xb4, 0xc6, 0xe8, 0xdd, 0x74, 0x1f, 0x4b, 0xbd, 0x8b, 0x8a]] ++
  [[0x70, 0x3e, 0xb5, 0x66, 0x48, 0x03, 0xf6, 0x0e, 0x61, 0x35, 0x57, 0xb9, 0x86, 0xc1, 0x1d, 0x9e]] ++
  [[0xe1, 0xf8, 0x98, 0x11, 0x69, 0xd9, 0x8e, 0x94, 0x9b, 0x1e, 0x87, 0xe9, 0xce, 0x55, 0x28, 0xdf]] ++
  [[0x8c, 0xa1, 0x89, 0x0d, 0xbf, 0xe6, 0x42, 0x68, 0x41, 0x99, 0x2d, 0x0f, 0xb0, 0x54, 0xbb, 0x16]]

theorem rcSbox_length : rcSboxRows.flatten.toArray.size = 256 := by decide +kernel

theorem henonLegal_rc :
    Machine.henonLegal (Machine.f64Dec 14 1) (Machine.f64Dec 3 1) (Machine.f64Dec 1000 0) = true := by
  decide +kernel

/-- The reference configuration RC of R8, the spec's own choice of values. It is used by tests of
the vectors of 95_test_vectors.md only: no definition of the machine mentions it. -/
def Config.rc : Config :=
  ⟨16, 4096, ⟨Machine.f64Dec 14 1, Machine.f64Dec 3 1, Machine.f64Dec 1000 0, henonLegal_rc⟩,
    ⟨rcSboxRows.flatten.toArray, rcSbox_length⟩, .keepLow, by decide, by decide⟩

end Sys2Proof
end

