-- ==== Sys2Proof/Syntax.lean ====
section
/-! DEFINITION. The engine's operations: one constructor for each row of spec/opcode_table.json
(30_encoding.md R80 to R90). -/

namespace Sys2Proof

/-- The sixteen encoded operations of the engine, by format:
three host commands (R81), nine stage operations named by a phase code (R86) and four
round operations named by the round index (R87). -/
inductive Instr where
  /-- NOP, command word 0x00000000 (R191). -/
  | nop
  /-- START with its option selector OPTS and input mode HEXIN (R83, R84, R192). -/
  | start (opts : BitVec 4) (hexin : Bool)
  /-- CLEAR, command word 0x00000002 (R194). -/
  | clear
  /-- CHECK, phase code 1 (R99). -/
  | check
  /-- PAD, phase code 2 (R106). -/
  | pad
  /-- CUBESUM, phase code 3 (R142). -/
  | cubesum
  /-- HENONGEN, phase code 4 (R169). -/
  | henongen
  /-- COMPRESS, phase code 5 (R124). -/
  | compress
  /-- CHAOS, phase code 6 (R154). -/
  | chaos
  /-- HENONMIX, phase code 7 (R170). -/
  | henonmix
  /-- FINAL, phase code 8 (R182). -/
  | finalSub
  /-- OUTPUT, phase code 9 (R183). -/
  | output
  /-- ROUND_F at the round index `j`, `j[5:4] = 00` (R118). -/
  | roundF (j : BitVec 6)
  /-- ROUND_G at the round index `j`, `j[5:4] = 01` (R119). -/
  | roundG (j : BitVec 6)
  /-- ROUND_H at the round index `j`, `j[5:4] = 10` (R120). -/
  | roundH (j : BitVec 6)
  /-- ROUND_I at the round index `j`, `j[5:4] = 11` (R121). -/
  | roundI (j : BitVec 6)
  deriving DecidableEq, Repr

/-- One encoded object of the engine, by format (R80, R86, R87). -/
inductive Code where
  /-- The 32-bit word a host writes to CMD (R81). -/
  | cmd (w : Word)
  /-- The 4-bit phase code of STATUS.PHASE (R86). -/
  | phase (p : BitVec 4)
  /-- The 6-bit round index inside a COMPRESS step (R87). -/
  | round (j : BitVec 6)
  deriving DecidableEq, Repr

end Sys2Proof
end

