-- ==== Sys2Proof/WellFormed.lean ====
section
/-! DEFINITION. Which terms of `Instr` the encodings of the spec can write down. -/

namespace Sys2Proof

/-- The round group that a round index belongs to, `j[5:4]` (30_encoding.md R87). -/
def roundGroup (j : BitVec 6) : BitVec 2 := j.extractLsb' 4 2

/-- A round operation is well-formed when its index lies in the operation's own group of
sixteen rounds (R87). Every other operation is well-formed as it stands: all 16 option
selectors and both input modes are legal (R83, R84). -/
def Instr.wf : Instr → Bool
  | .nop => true
  | .start _ _ => true
  | .clear => true
  | .check => true
  | .pad => true
  | .cubesum => true
  | .henongen => true
  | .compress => true
  | .chaos => true
  | .henonmix => true
  | .finalSub => true
  | .output => true
  | .roundF j => roundGroup j == 0#2
  | .roundG j => roundGroup j == 1#2
  | .roundH j => roundGroup j == 2#2
  | .roundI j => roundGroup j == 3#2

end Sys2Proof
end

