-- ==== Sys2Proof/Decode.lean ====
section
/-! DEFINITION. Decoding, total on every command word, phase code and round index, and after it
the encoder (30_encoding.md R80 to R90). -/

namespace Sys2Proof

/-- Why a code names no operation. -/
inductive Reject where
  /-- A CMD word that matches none of the three patterns of R82. -/
  | illegalCommand (w : Word)
  /-- Phase code 0: no step is pending (R86). -/
  | idlePhase
  /-- Phase codes 10 to 15, which never appear in STATUS.PHASE (R86). -/
  | reservedPhase (p : BitVec 4)
  deriving DecidableEq, Repr

/-- The command word's OPCODE field (R81). -/
def cmdOpcode (w : Word) : BitVec 8 := w.extractLsb' 0 8

/-- The command word's OPTS field (R81). -/
def cmdOpts (w : Word) : BitVec 4 := w.extractLsb' 8 4

/-- The command word's HEXIN field (R81). -/
def cmdHexin (w : Word) : Bool := w.getLsbD 12

/-- The command word's reserved field, which must be 0 (R81). -/
def cmdReserved (w : Word) : BitVec 19 := w.extractLsb' 13 19

/-- The command a word is, by the three patterns of R82. -/
def decodeCmd (w : Word) : Except Reject Instr :=
  if w = 0x00000000#32 then .ok .nop
  else if w = 0x00000002#32 then .ok .clear
  else if cmdOpcode w = 0x01#8 ∧ cmdReserved w = 0#19 then .ok (.start (cmdOpts w) (cmdHexin w))
  else .error (.illegalCommand w)

/-- The stage operation a phase code names (R86). -/
def decodePhase (p : BitVec 4) : Except Reject Instr :=
  match p.toNat with
  | 0 => .error .idlePhase
  | 1 => .ok .check
  | 2 => .ok .pad
  | 3 => .ok .cubesum
  | 4 => .ok .henongen
  | 5 => .ok .compress
  | 6 => .ok .chaos
  | 7 => .ok .henonmix
  | 8 => .ok .finalSub
  | 9 => .ok .output
  | _ => .error (.reservedPhase p)

/-- The round operation a round index selects by its bits 5:4 (R87). -/
def decodeRound (j : BitVec 6) : Instr :=
  match (roundGroup j).toNat with
  | 0 => .roundF j
  | 1 => .roundG j
  | 2 => .roundH j
  | _ => .roundI j

/-- Decoding of any code (R89: decoding is total). -/
def decode : Code → Except Reject Instr
  | .cmd w => decodeCmd w
  | .phase p => decodePhase p
  | .round j => .ok (decodeRound j)

/-- The START word `0x00000001 | OPTS<<8 | HEXIN<<12` (R90). -/
def startWord (opts : BitVec 4) (hexin : Bool) : Word :=
  0#19 ++ BitVec.ofBool hexin ++ opts ++ 0x01#8

/-- The code of each operation (R82, R86, R87). -/
def encode : Instr → Code
  | .nop => .cmd 0x00000000#32
  | .start opts hexin => .cmd (startWord opts hexin)
  | .clear => .cmd 0x00000002#32
  | .check => .phase 1#4
  | .pad => .phase 2#4
  | .cubesum => .phase 3#4
  | .henongen => .phase 4#4
  | .compress => .phase 5#4
  | .chaos => .phase 6#4
  | .henonmix => .phase 7#4
  | .finalSub => .phase 8#4
  | .output => .phase 9#4
  | .roundF j => .round j
  | .roundG j => .round j
  | .roundH j => .round j
  | .roundI j => .round j

/-- The code that an opcode-table word of `nbits` bits is. A 32-bit word is a CMD word. A phase
code has 4 bits and a round index 6, and both take one byte in whole bytes: there the values 1
to 9, the phase codes of R86, are read as phase codes and every other value below 64 as a round
index (DESIGN CHOICE, notes/assumptions/11.md). -/
def tableCode (nbits w : Nat) : Option Code :=
  if nbits = 32 then
    if w < 2 ^ 32 then some (.cmd (BitVec.ofNat 32 w)) else none
  else if nbits = 4 then
    if w < 16 then some (.phase (BitVec.ofNat 4 w)) else none
  else if nbits = 6 then
    if w < 64 then some (.round (BitVec.ofNat 6 w)) else none
  else if nbits = 8 then
    if 1 ≤ w ∧ w ≤ 9 then some (.phase (BitVec.ofNat 4 w))
    else if w < 64 then some (.round (BitVec.ofNat 6 w))
    else none
  else none

/-- The operation this decoder reads from an opcode-table word. -/
def decodeTableWord (nbits w : Nat) : Option Instr :=
  match tableCode nbits w with
  | none => none
  | some c =>
    match decode c with
    | .ok i => some i
    | .error _ => none

end Sys2Proof
end

