-- ==== Sys2Proof/Machine/State.lean ====
section
/-! DEFINITION. The state of the engine (10_state.md R20 to R51), the host's events, and the
state right after reset (R50). -/

namespace Sys2Proof.Machine

/-- Why the machine stops. -/
inductive Fault where
  /-- Raised by a host event whose byte offset is not in [0, 2^ADDR_BITS): the port has no such
  offset (R20, R60). Safe: the spec gives such a transaction no meaning. -/
  | outsideWindow (off : Word)
  deriving DecidableEq, Repr

/-- Why a step has no meaning. -/
inductive Refusal where
  /-- Raised by an arm of `exec` whose instruction has no meaning yet; none is left. Safe. -/
  | notModelled (mnemonic : String)
  /-- Raised by a sequencer step with BUSY = 1 and PHASE = 0, which no run reaches (R24). Safe. -/
  | idlePhase
  /-- Raised by a sequencer step with PHASE 10 to 15, which no run reaches (I11). Safe. -/
  | reservedPhase (p : BitVec 4)
  deriving DecidableEq, Repr

/-- Four 32-bit words in order: a, b, c, d of the hash state (R38), or words 0 to 3 of SV (R39) and
of DIGEST (R34). -/
structure Quad where
  a : Word
  b : Word
  c : Word
  d : Word
  deriving DecidableEq, Repr

/-- Word `i` of the four. -/
def Quad.get (q : Quad) (i : Fin 4) : Word :=
  match i with
  | 0 => q.a
  | 1 => q.b
  | 2 => q.c
  | 3 => q.d

/-- The bytes of MSGBUF: those the host has written since the last hard reset, by rising index,
and the number of that reset, at which every other byte was drawn (R69). -/
structure Memory where
  epoch : Nat
  cells : List Host.Cell
  deriving DecidableEq, Repr

/-- Where the sequencer is inside a COMPRESS step (R40, R49). -/
inductive Inner where
  /-- Inside no COMPRESS step: the only value between two atomic events. -/
  | outside
  /-- Before the round with this index. -/
  | round (j : BitVec 6)
  /-- After round 63, before the additive update. -/
  | tail
  deriving DecidableEq, Repr

/-- How many bits a bus transaction moves (R62, R63). R63 says only "narrower than 32 bits"; that the
narrow widths are 8 and 16 bits, the byte and the halfword that R62 names, and that nothing wider than
32 bits can be put to the port, is the model's choice (DESIGN CHOICE, notes/assumptions/20.md). -/
inductive Width where
  | w8
  | w16
  | w32
  deriving DecidableEq, Repr

/-- One event of the host: a bus transaction (R60), the WAIT of host programs (R88), or a change of
the reset input (R245). -/
inductive HostOp where
  | write (width : Width) (off : Word) (value : Word)
  | read (width : Width) (off : Word)
  /-- Read the register at `off` until `value & mask = want`. -/
  | wait (off : Word) (mask : Word) (want : Word)
  /-- Drive the reset input: assert it (`true`) or release it (`false`). -/
  | rst (level : Bool)
  deriving DecidableEq, Repr

/-- What the bus port answers a transaction (R60, R63). -/
inductive Answer where
  | okay
  | okayData (value : Word)
  | error
  /-- ERROR to a read; its data is a free value. -/
  | errorData (value : Word)
  deriving DecidableEq, Repr

/-- Everything the spec gives the engine, the configuration it was built with, and the model's own
fields `pending`, `answer`, `gap` and `draws`. -/
structure State where
  /-- The build's parameters; no event changes them (R9). -/
  cfg : Config
  /-- STATUS.BUSY (R22, R24). -/
  busy : Bool
  /-- STATUS.DONE (R22, R25). -/
  done : Bool
  /-- STATUS.ERR (R22, R25). -/
  err : Bool
  /-- STATUS.ERRCODE (R22, R221). -/
  errcode : BitVec 4
  /-- STATUS.PHASE (R22, R86). -/
  phase : BitVec 4
  /-- STATUS.OPTS (R22, R26). -/
  opts : BitVec 4
  /-- STATUS.HEXIN (R22, R26). -/
  hexin : Bool
  /-- MSG_LEN (R27). -/
  msgLen : Word
  /-- IRQ_EN.DONE_IE (R28). -/
  doneIe : Bool
  /-- IRQ_EN.ERR_IE (R28). -/
  errIe : Bool
  /-- ERRINFO (R29). -/
  errinfo : Word
  /-- BLOCK_CNT (R31, R40). -/
  blockCnt : Word
  /-- BLOCK_TOTAL (R32). -/
  blockTotal : Word
  /-- The hash-state register file HS (R38). -/
  hs : Quad
  /-- DIGEST0..3 (R34). -/
  digest : Quad
  /-- MSGBUF (R37), by byte index. -/
  msgbuf : Memory
  /-- The saved-state file SV (R39). -/
  sv : Quad
  /-- The chaos table CT (R44). -/
  ct : Vector Byte 256
  /-- The Henon array HA, row by row (R45). -/
  ha : Vector (BitVec 4) 32
  /-- WORK as the byte string it holds (R47). -/
  work : List Byte
  /-- RUN_N (R48). -/
  runN : Word
  /-- DG (R48). -/
  dg : Vector Byte 16
  /-- The round index inside a COMPRESS step (R40, R49). -/
  inner : Inner
  /-- The level of the reset input `rst`: `true` while it is asserted (R60, R245). -/
  rst : Bool
  /-- The model's own: the host's events still to come, in order. -/
  pending : List HostOp
  /-- The model's own: the bus port's answer to the latest transaction; `none` when there has been none
  since reset, or when it was not answered (R245). -/
  answer : Option Answer
  /-- The model's own: how many host events may come before the sequencer's next step (R262). -/
  gap : Nat
  /-- The model's own: how many free values have been taken. -/
  draws : Nat
  deriving DecidableEq, Repr

/-- The initial state IV (R43, R116). -/
def iv : Quad := ⟨0x67452301#32, 0xEFCDAB89#32, 0x98BADCFE#32, 0x10325476#32⟩

/-- The state after a hard reset of an engine built with `c`, `rst` released (R50, R245). The hidden registers SV,
CT, HA, RUN_N and DG, which R50 leaves unspecified, are 0 (DESIGN CHOICE, notes/assumptions/7.md). -/
def State.resetWith (c : Config) : State where
  cfg := c
  busy := false
  done := false
  err := false
  errcode := 0#4
  phase := 0#4
  opts := 0#4
  hexin := false
  msgLen := 0#32
  doneIe := false
  errIe := false
  errinfo := 0#32
  blockCnt := 0#32
  blockTotal := 0#32
  hs := iv
  digest := ⟨0#32, 0#32, 0#32, 0#32⟩
  msgbuf := ⟨0, []⟩
  sv := ⟨0#32, 0#32, 0#32, 0#32⟩
  ct := Vector.replicate 256 0#8
  ha := Vector.replicate 32 0#4
  work := []
  runN := 0#32
  dg := Vector.replicate 16 0#8
  inner := .outside
  rst := false
  pending := []
  answer := none
  gap := 0
  draws := 1

/-- The machine right after reset, as the spec says (R50). -/
def State.reset : State := State.resetWith Config.built

end Sys2Proof.Machine
end

