-- ==== Sys2Proof/Machine/Flags.lean ====
section
/-! DEFINITION. The flags: the STATUS and IRQ_EN words and the interrupt line (10_state.md R22 to R28;
60_exceptions.md R233). No stage operation sets a flag as a side effect of its arithmetic (R25). -/

namespace Sys2Proof.Machine

/-- The STATUS word; bits 3 and 31:17 read 0 (R22). -/
def State.statusWord (s : State) : Word :=
  0#15 ++ BitVec.ofBool s.hexin ++ s.opts ++ s.phase ++ s.errcode ++ 0#1 ++ BitVec.ofBool s.err ++
    BitVec.ofBool s.done ++ BitVec.ofBool s.busy

/-- The IRQ_EN word; bits 31:2 read 0 (R28). -/
def State.irqEnWord (s : State) : Word := 0#30 ++ BitVec.ofBool s.errIe ++ BitVec.ofBool s.doneIe

/-- The interrupt output (R233). -/
def State.irq (s : State) : Bool := s.done && s.doneIe || s.err && s.errIe

/-- Option `n` of 1 to 4 is enabled: bit `n - 1` of the selector (R83). -/
def State.option (s : State) (n : Nat) : Bool := s.opts.getLsbD (n - 1)

end Sys2Proof.Machine
end

