-- ==== Sys2Proof/Machine/Operands.lean ====
section
/-! DEFINITION. The operand forms of the engine: byte strings, the codec and the packings
(00_scope.md R10 to R15; 40_codec_padding.md R95 to R102). -/

namespace Sys2Proof.Machine

/-- `B[i:j)` (R10). -/
def slice (B : List Byte) (i j : Nat) : List Byte := (B.drop i).take (j - i)

/-- `B[i]`, for an index within the string (R10). -/
def byteAt (B : List Byte) (i : Nat) : Byte := B.getD i 0#8

/-- `LE32(B, o)` (R15). -/
def le32 (B : List Byte) (o : Nat) : Word :=
  byteAt B (o + 3) ++ byteAt B (o + 2) ++ byteAt B (o + 1) ++ byteAt B o

/-- `bytesLE(w)` (R15, R102). -/
def bytesLE (w : Word) : List Byte :=
  [w.extractLsb' 0 8, w.extractLsb' 8 8, w.extractLsb' 16 8, w.extractLsb' 24 8]

/-- `bytesLE64(v)` (R102). -/
def bytesLE64 (v : Nat) : List Byte := (List.range 8).map fun k => BitVec.ofNat 8 (v / 256 ^ k)

/-- `rotl(x, c)` (R11, R100). -/
def rotl (x : Word) (c : Nat) : Word := (x <<< c) ||| (x >>> (32 - c))

/-- `word(B, g)` of a 64-byte block (R101). -/
def blockWord (B : List Byte) (g : Nat) : Word := le32 B (4 * g)

/-- `int_be(B)`, the big-endian value of a byte string (R12). -/
def intBe (B : List Byte) : Nat := B.foldl (fun v x => 256 * v + x.toNat) 0

/-- `BE_k(v)`, the low `k` bytes of `v`, most significant first (R137). -/
def bytesBE (k v : Nat) : List Byte :=
  (List.range k).map fun i => BitVec.ofNat 8 (v / 256 ^ (k - 1 - i))

/-- `hexval(c)`, the digit of an ASCII code, if it is a hex character (R96). -/
def hexval (c : Byte) : Option (BitVec 4) :=
  if 0x30 ≤ c.toNat ∧ c.toNat ≤ 0x39 then some (BitVec.ofNat 4 (c.toNat - 0x30))
  else if 0x61 ≤ c.toNat ∧ c.toNat ≤ 0x66 then some (BitVec.ofNat 4 (c.toNat - 0x61 + 10))
  else if 0x41 ≤ c.toNat ∧ c.toNat ≤ 0x46 then some (BitVec.ofNat 4 (c.toNat - 0x41 + 10))
  else none

/-- The digit hexdecode takes for a character; for one that is no hex character, which CHECK lets
none be, a free value (notes/assumptions/16.md). -/
def hexNibble (c : Byte) : BitVec 4 := (hexval c).getD (Config.nonHexDigit c)

/-- `hexdecode(C)`: the first character of each pair is the high nibble (R97). -/
def hexdecode : List Byte → List Byte
  | hi :: lo :: rest => (hexNibble hi ++ hexNibble lo) :: hexdecode rest
  | _ => []

/-- `hexdigit(d)`, lowercase (R98). -/
def hexdigit (d : BitVec 4) : Byte :=
  if d.toNat < 10 then BitVec.ofNat 8 (0x30 + d.toNat) else BitVec.ofNat 8 (0x61 + d.toNat - 10)

/-- The rendering of a byte as two hex digits (R98). -/
def hexRender (x : Byte) : List Byte := [hexdigit (x.extractLsb' 4 4), hexdigit (x.extractLsb' 0 4)]

/-- The 16 bytes of four words, each little-endian, in order: the pre-digest of a hash state
(R181). -/
def quadBytes (q : Quad) : List Byte := bytesLE q.a ++ bytesLE q.b ++ bytesLE q.c ++ bytesLE q.d

/-- The four words of 16 bytes, `LE32(B, 4k)` (R34). -/
def quadOfBytes (B : List Byte) : Quad := ⟨le32 B 0, le32 B 4, le32 B 8, le32 B 12⟩

/-- The sum of two hash states, word by word modulo 2^32 (R124). -/
def quadAdd (p q : Quad) : Quad := ⟨p.a + q.a, p.b + q.b, p.c + q.c, p.d + q.d⟩

end Sys2Proof.Machine
end

