-- ==== Sys2Proof/Machine/Ops.lean ====
section
/-! DEFINITION. The named operations over memory and registers, recording an error and the return
from it, and the sequencer position. -/

namespace Sys2Proof.Machine

/-! ### MSGBUF -/

/-- The byte the host last wrote at index `a`, if it has written one since the last hard reset. -/
def Memory.written (m : Memory) (a : Nat) : Option Byte := (m.cells.find? fun c => c.1 == a).map (·.2)

/-- The byte at index `a`; one the host has not written since the last hard reset is the free
value drawn at that reset (R69). This is what an unlisted address reads as. -/
def Memory.read (m : Memory) (a : Nat) : Byte :=
  (m.written a).getD (Config.unwrittenByte m.epoch a)

/-- Put a byte at index `a`, keeping the cells in rising order. -/
def cellsPut (a : Nat) (v : Byte) : List Host.Cell → List Host.Cell
  | [] => [(a, v)]
  | c :: rest =>
    if a < c.1 then (a, v) :: c :: rest
    else if a = c.1 then (a, v) :: rest
    else c :: cellsPut a v rest

/-- Write one byte. -/
def Memory.write (m : Memory) (a : Nat) (v : Byte) : Memory := { m with cells := cellsPut a v m.cells }

/-- `MemWrite(MSGBUF, a, |B|, B)` (R14). -/
def Memory.writeBytes (m : Memory) (a : Nat) : List Byte → Memory
  | [] => m
  | v :: rest => (m.write a v).writeBytes (a + 1) rest

/-- `MemRead(MSGBUF, a, n)` (R14). -/
def Memory.readBytes (m : Memory) (a n : Nat) : List Byte := (List.range n).map fun k => m.read (a + k)

/-- The canonical form: the listed addresses strictly rise. An unlisted address holds no written
byte, and every entry holds one, so no entry says what an unlisted address says. -/
abbrev Memory.wf (m : Memory) : Prop := m.cells.Pairwise fun c d => c.1 < d.1

/-! ### WORK -/

/-- A byte of WORK; above the stream it holds, a free value (R47, notes/assumptions/8.md). -/
def State.workByte (s : State) (a : Nat) : Byte := (s.work[a]?).getD (Config.workByte a)

/-- `MemRead(WORK, a, n)` (R14, R79). -/
def State.workBytes (s : State) (a n : Nat) : List Byte := (List.range n).map fun k => s.workByte (a + k)

/-- The block in progress, `MemRead(WORK, 64·i, 64)` with `i = BLOCK_CNT` (R79, R115). -/
def State.block (s : State) : List Byte := s.workBytes (64 * s.blockCnt.toNat) 64

/-! ### Errors -/

/-- The five errors (60_exceptions.md R221). -/
inductive ErrorKind where
  | format
  | length
  | busy
  | illegal
  | busyWrite
  deriving DecidableEq, Repr

/-- The code of an error (R221). -/
def ErrorKind.code : ErrorKind → BitVec 4
  | .format => 1#4
  | .length => 2#4
  | .busy => 3#4
  | .illegal => 4#4
  | .busyWrite => 5#4

/-- The ending errors, raised by CHECK only (R220, R222). -/
def ErrorKind.ending : ErrorKind → Bool
  | .format => true
  | .length => true
  | .busy => false
  | .illegal => false
  | .busyWrite => false

/-- `raise E(info)`: record the error, and end the run for an ending one (R220). -/
def State.raise (s : State) (e : ErrorKind) (info : Word) : State :=
  { s with
    err := true
    errcode := e.code
    errinfo := info
    busy := if e.ending then false else s.busy
    phase := if e.ending then 0#4 else s.phase }

/-- A write of `v` to STATUS: bit 1 clears DONE; bit 2 clears ERR with ERRCODE and ERRINFO, which
is the return from an error (R23, R235). -/
def State.clearFlags (s : State) (v : Word) : State :=
  { s with
    done := if v.getLsbD 1 then false else s.done
    err := if v.getLsbD 2 then false else s.err
    errcode := if v.getLsbD 2 then 0#4 else s.errcode
    errinfo := if v.getLsbD 2 then 0#32 else s.errinfo }

/-! ### Reset -/

/-- CLEAR: the reset values, but for MSGBUF, MSG_LEN and IRQ_EN (R51, R194). The level of `rst` and
the host's own progress stay. -/
def State.softReset (s : State) : State :=
  { State.resetWith s.cfg with
    msgbuf := s.msgbuf
    msgLen := s.msgLen
    doneIe := s.doneIe
    errIe := s.errIe
    rst := s.rst
    pending := s.pending
    answer := s.answer
    gap := s.gap
    draws := s.draws }

/-- The state from which `rst` is held asserted: the reset values, with a fresh draw of every MSGBUF
byte (R245, R69). The host's own progress stays. -/
def State.hardReset (s : State) : State :=
  { State.resetWith s.cfg with
    msgbuf := ⟨s.draws, []⟩
    rst := true
    pending := s.pending
    gap := s.gap
    draws := s.draws + 1 }

/-- Drive `rst`: asserting it resets the engine, and releasing it leaves the reset state to the first
transaction after it (R245, R246). -/
def State.driveRst (s : State) (level : Bool) : State :=
  if level then s.hardReset else { s with rst := false }

/-! ### The sequencer position -/

/-- The sequencer position `seq = (PHASE, BLOCK_CNT)` (R40). -/
def State.seqPosition (s : State) : BitVec 4 × Word := (s.phase, s.blockCnt)

/-- `seq <- (p, i)`: the position's two registers, written together (R14, R40). -/
def State.seqTo (s : State) (p : BitVec 4) (i : Word) : State := { s with phase := p, blockCnt := i }

/-- The phase after PAD (R197). -/
def State.phaseAfterPad (s : State) : BitVec 4 :=
  if s.option 1 then 3#4 else if s.option 3 then 4#4 else 5#4

/-- The phase after CUBESUM (R197). -/
def State.phaseAfterCubesum (s : State) : BitVec 4 := if s.option 3 then 4#4 else 5#4

/-- The end of block `i = BLOCK_CNT`, part of the block's last step (R197, R198). -/
def State.endOfBlock (s : State) : State :=
  { s with
    blockCnt := s.blockCnt + 1#32
    phase :=
      if s.blockCnt.toNat + 1 < s.blockTotal.toNat then 5#4
      else if s.option 4 then 8#4
      else 9#4 }

/-- The move on from COMPRESS (R197). -/
def State.afterCompress (s : State) : State :=
  if s.option 2 then { s with phase := 6#4 }
  else if s.option 3 then { s with phase := 7#4 }
  else s.endOfBlock

/-- The move on from CHAOS (R197). -/
def State.afterChaos (s : State) : State :=
  if s.option 3 then { s with phase := 7#4 } else s.endOfBlock

end Sys2Proof.Machine
end

