-- ==== Sys2Proof/Machine/Chaos.lean ====
section
/-! DEFINITION. The logistic-map table and the chaos substitution, Option 2 (43_chaos_sbox.md R150
to R158). -/

namespace Sys2Proof.Machine

/-- `f64(B[i])`. -/
def blockFloat (B : List Byte) (i : Nat) : F64 := f64OfNat (byteAt B i).toNat

/-- The seed, `0.5457 - B[63]·2e-6·B[32]` (R151). -/
def chaosSeed (B : List Byte) : F64 :=
  fsub (f64Dec 5457 4) (fmul (fmul (blockFloat B 63) (f64Dec 2 6)) (blockFloat B 32))

/-- The rate, `3.9 - B[0]·1e-3` (R151). -/
def chaosRate (B : List Byte) : F64 := fsub (f64Dec 39 1) (fmul (blockFloat B 0) (f64Dec 1 3))

/-- One step of the logistic map (R152). -/
def logisticNext (rate x : F64) : F64 := fmul (fmul rate x) (fsub (f64OfNat 1) x)

/-- The orbit values after each of `n` steps from `x`, in order (R152). -/
def logisticOrbit (rate : F64) : Nat → F64 → List F64
  | 0, _ => []
  | n + 1, x =>
    let y := logisticNext rate x
    y :: logisticOrbit rate n y

/-- The cell of an orbit value, `floor(x·256) mod 256` (R152). -/
def chaosCell (x : F64) : Byte := BitVec.ofNat 8 (f64FloorMod (fmul x (f64OfNat 256)) 256)

/-- The first `n` cells of the table of a block, row by row (R152, R153). -/
def chaosCells (B : List Byte) (n : Nat) : List Byte :=
  (logisticOrbit (chaosRate B) n (chaosSeed B)).map chaosCell

theorem logisticOrbit_length (rate : F64) (n : Nat) (x : F64) :
    (logisticOrbit rate n x).length = n := by
  induction n generalizing x with
  | zero => rfl
  | succ n ih => simp [logisticOrbit, ih]

theorem chaosCells_size (B : List Byte) : (chaosCells B 256).toArray.size = 256 := by
  simp [chaosCells, logisticOrbit_length]

/-- CT, the 256 cells (R152, R153). -/
def chaosTable (B : List Byte) : Vector Byte 256 := ⟨(chaosCells B 256).toArray, chaosCells_size B⟩

/-- The table's entry for a byte: row its high digit, column its low digit (R153, R154). -/
def chaosEntry (ct : Vector Byte 256) (x : Byte) : Byte := ct[x.toNat]

/-- `csub(w)`: every byte of the word through the table (R154). -/
def chaosSub (ct : Vector Byte 256) (w : Word) : Word :=
  chaosEntry ct (w.extractLsb' 24 8) ++ chaosEntry ct (w.extractLsb' 16 8) ++
    chaosEntry ct (w.extractLsb' 8 8) ++ chaosEntry ct (w.extractLsb' 0 8)

/-- The substitution of all four state words through one table (R154). -/
def chaosState (ct : Vector Byte 256) (h : Quad) : Quad :=
  ⟨chaosSub ct h.a, chaosSub ct h.b, chaosSub ct h.c, chaosSub ct h.d⟩

/-- CHAOS on the state and the block just compressed (R154). -/
def execChaos (s : State) : Host.Outcome State Fault Refusal :=
  let ct := chaosTable s.block
  .next { s with ct := ct, hs := chaosState ct s.hs }.afterChaos

end Sys2Proof.Machine
end

