-- ==== Sys2Proof/Machine/Command.lean ====
section
/-! DEFINITION. The host commands NOP, START and CLEAR (46_dispatcher.md R190 to R194). -/

namespace Sys2Proof.Machine

/-- NOP has no effect on any state (R191). -/
def execNop (s : State) : Host.Outcome State Fault Refusal := .next s

/-- What an accepted START writes (R192). -/
def State.startRun (s : State) (opts : BitVec 4) (hexin : Bool) : State :=
  { s with
    opts := opts
    hexin := hexin
    done := false
    err := false
    errcode := 0#4
    errinfo := 0#32
    busy := true
    phase := 1#4 }

/-- START: accepted while BUSY = 0 (R192), refused with BUSY and the command word while BUSY = 1
(R193, R225). -/
def execStart (opts : BitVec 4) (hexin : Bool) (s : State) : Host.Outcome State Fault Refusal :=
  if s.busy then .next (s.raise .busy (startWord opts hexin)) else .next (s.startRun opts hexin)

/-- CLEAR, accepted in every state (R194). -/
def execClear (s : State) : Host.Outcome State Fault Refusal := .next s.softReset

end Sys2Proof.Machine
end

