-- ==== Sys2Proof/Machine/Compress.lean ====
section
/-! DEFINITION. The compression core: the four round operations and COMPRESS
(41_compression.md R115 to R127). -/

namespace Sys2Proof.Machine

/-- The round constants, in the rows of R117. -/
def roundConstants : List Word :=
  [0xd76aa478, 0xe8c7b756, 0x242070db, 0xc1bdceee, 0xf57c0faf, 0x4787c62a, 0xa8304613, 0xfd469501] ++
  [0x698098d8, 0x8b44f7af, 0xffff5bb1, 0x895cd7be, 0x6b901122, 0xfd987193, 0xa679438e, 0x49b40821] ++
  [0xf61e2562, 0xc040b340, 0x265e5a51, 0xe9b6c7aa, 0xd62f105d, 0x02441453, 0xd8a1e681, 0xe7d3fbc8] ++
  [0x21e1cde6, 0xc33707d6, 0xf4d50d87, 0x455a14ed, 0xa9e3e905, 0xfcefa3f8, 0x676f02d9, 0x8d2a4c8a] ++
  [0xfffa3942, 0x8771f681, 0x6d9d6122, 0xfde5380c, 0xa4beea44, 0x4bdecfa9, 0xf6bb4b60, 0xbebfbc70] ++
  [0x289b7ec6, 0xeaa127fa, 0xd4ef3085, 0x04881d05, 0xd9d4d039, 0xe6db99e5, 0x1fa27cf8, 0xc4ac5665] ++
  [0xf4292244, 0x432aff97, 0xab9423a7, 0xfc93a039, 0x655b59c3, 0x8f0ccc92, 0xffeff47d, 0x85845dd1] ++
  [0x6fa87e4f, 0xfe2ce6e0, 0xa3014314, 0x4e0811a1, 0xf7537e82, 0xbd3af235, 0x2ad7d2bb, 0xeb86d391]

/-- `T[j]` (R42, R117). -/
def roundConstant (j : BitVec 6) : Word := roundConstants.getD j.toNat 0#32

/-- The common round update from the round's `f` and `g`: all four words are replaced at once (R122),
with a rotate of 7 in every round (R123). -/
def roundUpdate (f : Word) (g : Nat) (j : BitVec 6) (B : List Byte) (h : Quad) : Quad :=
  ⟨h.d, h.b + rotl (h.a + f + roundConstant j + blockWord B g) 7, h.b, h.c⟩

/-- ROUND_F (R118). -/
def roundOpF (j : BitVec 6) (B : List Byte) (h : Quad) : Quad :=
  roundUpdate ((h.b &&& h.c) ||| (~~~h.b &&& h.d)) (j.toNat % 16) j B h

/-- ROUND_G (R119). -/
def roundOpG (j : BitVec 6) (B : List Byte) (h : Quad) : Quad :=
  roundUpdate ((h.d &&& h.b) ||| (~~~h.d &&& h.c)) ((5 * j.toNat + 1) % 16) j B h

/-- ROUND_H (R120). -/
def roundOpH (j : BitVec 6) (B : List Byte) (h : Quad) : Quad :=
  roundUpdate (h.b ^^^ h.c ^^^ h.d) ((3 * j.toNat + 5) % 16) j B h

/-- ROUND_I (R121). -/
def roundOpI (j : BitVec 6) (B : List Byte) (h : Quad) : Quad :=
  roundUpdate (h.c ^^^ (h.b ||| ~~~h.d)) (7 * j.toNat % 16) j B h

/-- The round operation a round index decodes to (R87). -/
def roundOp (j : BitVec 6) (B : List Byte) (h : Quad) : Quad :=
  match (roundGroup j).toNat with
  | 0 => roundOpF j B h
  | 1 => roundOpG j B h
  | 2 => roundOpH j B h
  | _ => roundOpI j B h

/-- The first `n` rounds of a block, in order (R124). -/
def roundsUpTo (B : List Byte) (h : Quad) : Nat → Quad
  | 0 => h
  | n + 1 => roundOp (BitVec.ofNat 6 n) B (roundsUpTo B h n)

/-- The compression of one block: 64 rounds and the additive update (R124). -/
def compressBlock (B : List Byte) (h : Quad) : Quad := quadAdd (roundsUpTo B h 64) h

/-- The end of a COMPRESS step: the additive update and the move to the next position (R124). -/
def State.compressTail (s : State) : State :=
  { s with hs := quadAdd s.hs s.sv, inner := .outside }.afterCompress

/-- COMPRESS on block BLOCK_CNT (R124). -/
def execCompress (s : State) : Host.Outcome State Fault Refusal :=
  .next { s with sv := s.hs, hs := roundsUpTo s.block s.hs 64 }.compressTail

/-- ROUND_F on the hash state and the block in progress (R118). -/
def execRoundF (j : BitVec 6) (s : State) : Host.Outcome State Fault Refusal :=
  .next { s with hs := roundOpF j s.block s.hs }

/-- ROUND_G on the hash state and the block in progress (R119). -/
def execRoundG (j : BitVec 6) (s : State) : Host.Outcome State Fault Refusal :=
  .next { s with hs := roundOpG j s.block s.hs }

/-- ROUND_H on the hash state and the block in progress (R120). -/
def execRoundH (j : BitVec 6) (s : State) : Host.Outcome State Fault Refusal :=
  .next { s with hs := roundOpH j s.block s.hs }

/-- ROUND_I on the hash state and the block in progress (R121). -/
def execRoundI (j : BitVec 6) (s : State) : Host.Outcome State Fault Refusal :=
  .next { s with hs := roundOpI j s.block s.hs }

end Sys2Proof.Machine
end

