-- ==== Sys2Proof/Machine/CubicSum.lean ====
section
/-! DEFINITION. The cubic-sum mixer, Option 1 (42_cubic_sum.md R135 to R144). -/

namespace Sys2Proof.Machine

/-- `CS(S_1..S_m)`, the sum of the cubes of the big-endian values (R136). -/
def cubeSum (strings : List (List Byte)) : Nat := (strings.map fun S => intBe S ^ 3).sum

/-- The minimal big-endian length of a number in bytes; 0 has none (R137). -/
def byteLength (v : Nat) : Nat := (bitLength v + 7) / 8

/-- `ser_N(v)` (R137). -/
def ser (trunc : CubeTrunc) (N v : Nat) : List Byte :=
  if byteLength v ≤ N then List.replicate (N - byteLength v) 0#8 ++ bytesBE (byteLength v) v
  else
    match trunc with
    | .keepLow => bytesBE N (v % 256 ^ N)
    | .keepHigh => (bytesBE (byteLength v) v).take N

/-- Group `t` of the padded message, `P[192t : min(192t + 192, L))` (R138). -/
def cubeGroup (P : List Byte) (t : Nat) : List Byte := slice P (192 * t) (192 * t + 192)

/-- The 64-byte sub-blocks of a group (R138). -/
def subBlocks (G : List Byte) : List (List Byte) :=
  (List.range (G.length / 64)).map fun u => slice G (64 * u) (64 * u + 64)

/-- `R_t`, the replacement of a group, of the group's own length (R139). -/
def groupReplacement (trunc : CubeTrunc) (G : List Byte) : List Byte :=
  ser trunc G.length (cubeSum (subBlocks G))

/-- The head/tail binding segment F (R140). -/
def bindingSegment (trunc : CubeTrunc) (P : List Byte) : List Byte :=
  let L := P.length
  let first := slice P 0 64
  let second := if L < 65 then slice P 0 64 else slice P 64 128
  let last := slice P (L - 64) L
  ser trunc 192 (cubeSum [first, second, last])

/-- The mixer output W (R141). -/
def cubicMix (trunc : CubeTrunc) (P : List Byte) : List Byte :=
  ((List.range ((P.length + 191) / 192)).map fun t => groupReplacement trunc (cubeGroup P t)).flatten ++
    bindingSegment trunc P

/-- CUBESUM on P, of length `L = 64·BLOCK_TOTAL - 192` (R142). -/
def execCubesum (s : State) : Host.Outcome State Fault Refusal :=
  .next <|
    { s with
      work := cubicMix s.cfg.cubeTrunc (s.workBytes 0 (64 * s.blockTotal.toNat - 192))
    }.seqTo s.phaseAfterCubesum 0#32

end Sys2Proof.Machine
end

