-- ==== Sys2Proof/Machine/Digest.lean ====
section
/-! DEFINITION. Digest formation and the final substitution, Option 4 (45_final_sbox.md R180 to R186). -/

namespace Sys2Proof.Machine

/-- One byte through FINAL_SBOX (R182). -/
def finalEntry (table : Vector Byte 256) (x : Byte) : Byte := table[x.toNat]

/-- The pre-digest's 16 bytes through FINAL_SBOX (R181, R182). -/
def finalBytes (table : Vector Byte 256) (h : Quad) : List Byte := (quadBytes h).map (finalEntry table)

theorem finalBytes_size (table : Vector Byte 256) (h : Quad) :
    (finalBytes table h).toArray.size = 16 := by
  simp [finalBytes, quadBytes, bytesLE]

/-- FINAL (R182). -/
def execFinal (s : State) : Host.Outcome State Fault Refusal :=
  .next <|
    { s with
      dg := ⟨(finalBytes s.cfg.finalSbox s.hs).toArray, finalBytes_size s.cfg.finalSbox s.hs⟩
    }.seqTo 9#4 s.blockCnt

/-- The run's digest Dg: DG with Option 4, the pre-digest without it (R183). -/
def State.digestBytes (s : State) : List Byte := if s.option 4 then s.dg.toList else quadBytes s.hs

/-- OUTPUT (R183). -/
def execOutput (s : State) : Host.Outcome State Fault Refusal :=
  .next
    { s with
      digest := quadOfBytes s.digestBytes
      done := true
      busy := false
      phase := 0#4 }

/-- The 32 ASCII codes of the digest's hex rendering (R184). -/
def digestHex (q : Quad) : List Byte := ((quadBytes q).map hexRender).flatten

/-- `DIGEST_HEXk` (R35). -/
def digestHexWord (q : Quad) (k : Fin 8) : Word := le32 (digestHex q) (4 * k.val)

end Sys2Proof.Machine
end

