-- ==== Sys2Proof/Machine/Henon.lean ====
section
/-! DEFINITION. The Henon array and the Henon mixing, Option 3 (44_henon.md R165 to R173). -/

namespace Sys2Proof.Machine

theorem henonCells_size (a b range : F64) : (henonCells a b range).toArray.size = 32 := by
  simp [henonCells_length]

/-- HA for a build's parameters (R165, R167). -/
def henonArray (p : HenonParams) : Vector (BitVec 4) 32 :=
  ⟨(henonCells p.a p.b p.range).toArray, henonCells_size p.a p.b p.range⟩

/-- HENONGEN (R169). -/
def execHenongen (s : State) : Host.Outcome State Fault Refusal :=
  .next ({ s with ha := henonArray s.cfg.henon }.seqTo 5#4 0#32)

/-- `HA[row][i]` (R45). -/
def henonEntry (ha : Vector (BitVec 4) 32) (row : Fin 4) (i : Fin 8) : BitVec 4 :=
  ha[8 * row.val + i.val]

/-- Digit `i` of `hex8(w)`, from the left, times the row's entry `i`, modulo 16 (R170). -/
def henonDigit (ha : Vector (BitVec 4) 32) (row : Fin 4) (w : Word) (i : Fin 8) : BitVec 4 :=
  w.extractLsb' (28 - 4 * i.val) 4 * henonEntry ha row i

/-- `hmix(w, row)` (R170). -/
def henonMix (ha : Vector (BitVec 4) 32) (row : Fin 4) (w : Word) : Word :=
  henonDigit ha row w 0 ++ henonDigit ha row w 1 ++ henonDigit ha row w 2 ++ henonDigit ha row w 3 ++
    henonDigit ha row w 4 ++ henonDigit ha row w 5 ++ henonDigit ha row w 6 ++ henonDigit ha row w 7

/-- The mixing of all four state words, each with its own row (R170). -/
def henonState (ha : Vector (BitVec 4) 32) (h : Quad) : Quad :=
  ⟨henonMix ha 0 h.a, henonMix ha 1 h.b, henonMix ha 2 h.c, henonMix ha 3 h.d⟩

/-- HENONMIX, always the block's last step (R170). -/
def execHenonmix (s : State) : Host.Outcome State Fault Refusal :=
  .next { s with hs := henonState s.ha s.hs }.endOfBlock

end Sys2Proof.Machine
end

