-- ==== Sys2Proof/Machine/Padding.lean ====
section
/-! DEFINITION. CHECK and PAD: validating, loading and padding the message
(40_codec_padding.md R99 to R109). -/

namespace Sys2Proof.Machine

/-- The first index at or above `k`, among the next `n`, whose MSGBUF byte is no hex character. -/
def firstNonHex (m : Memory) (k : Nat) : Nat → Option Nat
  | 0 => none
  | n + 1 => if (hexval (m.read k)).isNone then some k else firstNonHex m (k + 1) n

/-- The error CHECK finds, in the order of R99 and R230, with its information word. -/
def State.checkError (s : State) : Option (ErrorKind × Word) :=
  if s.msgLen.toNat ≤ s.cfg.msgBufBytes then
    if s.hexin then
      if s.msgLen.toNat % 2 = 1 then some (.format, s.msgLen)
      else (firstNonHex s.msgbuf 0 s.msgLen.toNat).map fun k => (.format, BitVec.ofNat 32 k)
    else none
  else some (.length, s.msgLen)

/-- CHECK (R99). Without an error it ends in `seq <- (PAD, 0)`, which writes 0 to BLOCK_CNT (R40, R205;
R207's trace reads otherwise, notes/assumptions/9.md). -/
def execCheck (s : State) : Host.Outcome State Fault Refusal :=
  match s.checkError with
  | some (e, info) => .next (s.raise e info)
  | none => .next (s.seqTo 2#4 0#32)

/-- The message M of the run (R103). -/
def State.message (s : State) : List Byte :=
  if s.hexin then hexdecode (s.msgbuf.readBytes 0 s.msgLen.toNat)
  else s.msgbuf.readBytes 0 s.msgLen.toNat

/-- The count of zero bytes, `(55 - n) mod 64` with the floored modulo (R104). -/
def padZeros (n : Nat) : Nat := ((55 - (n : Int)) % 64).toNat

/-- `pad(M)` (R104). -/
def padMessage (M : List Byte) : List Byte :=
  M ++ [0x80#8] ++ List.replicate (padZeros M.length) 0#8 ++ bytesLE64 (8 * M.length % 2 ^ 64)

/-- PAD (R106). -/
def execPad (s : State) : Host.Outcome State Fault Refusal :=
  let M := s.message
  let P := padMessage M
  .next <|
    { s with
      work := P
      runN := BitVec.ofNat 32 M.length
      hs := iv
      blockTotal := BitVec.ofNat 32 ((P.length + if s.option 1 then 192 else 0) / 64)
    }.seqTo s.phaseAfterPad 0#32

end Sys2Proof.Machine
end

