-- ==== Sys2Proof/Machine/Dispatch.lean ====
section
/-! DEFINITION. One arm for each operation of the opcode table. -/

namespace Sys2Proof.Machine

/-- The meaning of each operation. -/
def exec (i : Instr) (s : State) : Host.Outcome State Fault Refusal :=
  match i with
  | .nop => Sys2Proof.Machine.execNop s
  | .start opts hexin => Sys2Proof.Machine.execStart opts hexin s
  | .clear => Sys2Proof.Machine.execClear s
  | .check => Sys2Proof.Machine.execCheck s
  | .pad => Sys2Proof.Machine.execPad s
  | .cubesum => Sys2Proof.Machine.execCubesum s
  | .henongen => Sys2Proof.Machine.execHenongen s
  | .compress => Sys2Proof.Machine.execCompress s
  | .chaos => Sys2Proof.Machine.execChaos s
  | .henonmix => Sys2Proof.Machine.execHenonmix s
  | .finalSub => Sys2Proof.Machine.execFinal s
  | .output => Sys2Proof.Machine.execOutput s
  | .roundF j => Sys2Proof.Machine.execRoundF j s
  | .roundG j => Sys2Proof.Machine.execRoundG j s
  | .roundH j => Sys2Proof.Machine.execRoundH j s
  | .roundI j => Sys2Proof.Machine.execRoundI j s

end Sys2Proof.Machine
end

