-- ==== Sys2Proof/Machine/Bus.lean ====
section
/-! DEFINITION. The host's bus transactions on the register window (10_state.md R20 to R37;
20_memory.md R60 to R79). -/

namespace Sys2Proof.Machine

/-- What a byte offset of the window names (R20). -/
inductive Reg where
  | cmd
  | status
  | msgLen
  | irqEn
  | errinfo
  | caps
  | blockCnt
  | blockTotal
  | hstate (i : Fin 4)
  | digest (i : Fin 4)
  | digestHex (k : Fin 8)
  /-- A reserved offset (R36). -/
  | reserved
  /-- Word `k` of MSGBUF (R64). -/
  | msgbuf (k : Nat)
  /-- No offset of the window (R20). -/
  | outside
  deriving DecidableEq, Repr

/-- The register map below 0x1000 (R20). -/
def lowReg (off : Nat) : Reg :=
  match off with
  | 0x000 => .cmd
  | 0x004 => .status
  | 0x008 => .msgLen
  | 0x00C => .irqEn
  | 0x010 => .errinfo
  | 0x014 => .caps
  | 0x018 => .blockCnt
  | 0x01C => .blockTotal
  | 0x020 => .hstate 0
  | 0x024 => .hstate 1
  | 0x028 => .hstate 2
  | 0x02C => .hstate 3
  | 0x030 => .digest 0
  | 0x034 => .digest 1
  | 0x038 => .digest 2
  | 0x03C => .digest 3
  | 0x040 => .digestHex 0
  | 0x044 => .digestHex 1
  | 0x048 => .digestHex 2
  | 0x04C => .digestHex 3
  | 0x050 => .digestHex 4
  | 0x054 => .digestHex 5
  | 0x058 => .digestHex 6
  | 0x05C => .digestHex 7
  | _ => .reserved

/-- The register map (R20). -/
def regAt (c : Config) (off : Nat) : Reg :=
  if off < 0x1000 then lowReg off
  else if off < 0x1000 + c.msgBufBytes then .msgbuf ((off - 0x1000) / 4)
  else if off < 2 ^ c.addrBits then .reserved
  else .outside

/-- A transaction is admitted when it moves 32 bits at a 4-aligned offset (R62). -/
def admitted (width : Width) (off : Word) : Bool := width == .w32 && off.toNat % 4 == 0

/-- The word a read of a register returns, and the state after it: no read has a side effect (R71),
but one of HSTATE while BUSY = 1 takes a free value (R33). -/
def readReg (r : Reg) (s : State) : Word × State :=
  match r with
  | .cmd => (0#32, s)
  | .status => (s.statusWord, s)
  | .msgLen => (s.msgLen, s)
  | .irqEn => (s.irqEnWord, s)
  | .errinfo => (s.errinfo, s)
  | .caps => (BitVec.ofNat 32 s.cfg.msgBufBytes, s)
  | .blockCnt => (s.blockCnt, s)
  | .blockTotal => (s.blockTotal, s)
  | .hstate i =>
    if s.busy then (Config.hstateDraw s.draws, { s with draws := s.draws + 1 }) else (s.hs.get i, s)
  | .digest i => (s.digest.get i, s)
  | .digestHex k => (digestHexWord s.digest k, s)
  | .reserved => (0#32, s)
  | .msgbuf k => (le32 (s.msgbuf.readBytes (4 * k) 4) 0, s)
  | .outside => (0#32, s)

/-- A write of `v` to CMD: ILLEGAL for an illegal word, else the command (R190). -/
def writeCmd (v : Word) (s : State) : Host.Outcome State Fault Refusal :=
  match decodeCmd v with
  | .ok i => exec i s
  | .error _ => .next (s.raise .illegal v)

/-- A write of `v` to the register at offset `off`. -/
def writeReg (r : Reg) (off v : Word) (s : State) : Host.Outcome State Fault Refusal :=
  match r with
  | .cmd => writeCmd v s
  | .status => .next (s.clearFlags v)
  | .msgLen => if s.busy then .next (s.raise .busyWrite off) else .next { s with msgLen := v }
  | .irqEn => .next { s with doneIe := v.getLsbD 0, errIe := v.getLsbD 1 }
  | .errinfo => .next s
  | .caps => .next s
  | .blockCnt => .next s
  | .blockTotal => .next s
  | .hstate _ => .next s
  | .digest _ => .next s
  | .digestHex _ => .next s
  | .reserved => .next s
  | .msgbuf k =>
    if s.busy then .next (s.raise .busyWrite off)
    else .next { s with msgbuf := s.msgbuf.writeBytes (4 * k) (bytesLE v) }
  | .outside => .fault (.outsideWindow off)

/-- A write transaction (R62, R63). -/
def busWrite (width : Width) (off v : Word) (s : State) : Host.Outcome State Fault Refusal :=
  match regAt s.cfg off.toNat with
  | .outside => .fault (.outsideWindow off)
  | r =>
    if admitted width off then writeReg r off v { s with answer := some .okay }
    else .next { s with answer := some .error }

/-- A read transaction (R62, R63). -/
def busRead (width : Width) (off : Word) (s : State) : Host.Outcome State Fault Refusal :=
  match regAt s.cfg off.toNat with
  | .outside => .fault (.outsideWindow off)
  | r =>
    if admitted width off then
      .next { (readReg r s).2 with answer := some (.okayData (readReg r s).1) }
    else
      .next { s with answer := some (.errorData (Config.errorDraw s.draws)), draws := s.draws + 1 }

/-- The latest answer is OKAY data that ends a WAIT (R88). -/
def State.waitOver (s : State) (mask want : Word) : Bool :=
  match s.answer with
  | some (.okayData v) => v &&& mask == want
  | _ => false

/-- A WAIT, already taken from the host's queue: a read, after which it goes back to the head of the
queue unless the value read ends it (R88). -/
def busWait (off mask want : Word) (s : State) : Host.Outcome State Fault Refusal :=
  match busRead .w32 off s with
  | .next t =>
    .next (if t.waitOver mask want then t else { t with pending := .wait off mask want :: t.pending })
  | .fault r => .fault r
  | .refused r => .refused r

/-- What the bus port makes of a transaction: while `rst` is asserted the block answers none (R245),
and the transaction is lost (DESIGN CHOICE, notes/assumptions/12.md). -/
def State.atPort (s : State) (transaction : State → Host.Outcome State Fault Refusal) :
    Host.Outcome State Fault Refusal :=
  if s.rst then .next { s with answer := none } else transaction s

/-- One event of the host, already taken from its queue. -/
def hostEvent (op : HostOp) (s : State) : Host.Outcome State Fault Refusal :=
  match op with
  | .write width off v => s.atPort (busWrite width off v)
  | .read width off => s.atPort (busRead width off)
  | .wait off mask want => s.atPort (busWait off mask want)
  | .rst level => .next (s.driveRst level)

end Sys2Proof.Machine
end

