-- ==== Sys2Proof/Machine/Sequencer.lean ====
section
/-! DEFINITION. Which event comes next, and the event (46_dispatcher.md R196; 20_memory.md R71, R72;
70_reset_and_hazards.md R262). -/

namespace Sys2Proof.Machine

/-- The event that comes next. -/
inductive Turn where
  /-- The host's first pending event, with those after it. -/
  | host (op : HostOp) (rest : List HostOp)
  /-- The sequencer's step. -/
  | sequencer
  /-- A round inside a COMPRESS step. -/
  | round (j : BitVec 6)
  /-- The end of a COMPRESS step. -/
  | tail
  /-- Nothing: the engine is idle or held in reset, and the host has nothing pending (R196, R243, R245). -/
  | idle
  deriving DecidableEq, Repr

/-- The sequencer has a step to perform: a run is under way and `rst` is not asserted (R196, R245). -/
def State.running (s : State) : Bool := s.busy && !s.rst

/-- Whose turn it is. A COMPRESS step under way is finished first (R71). The host goes while the
sequencer has nothing to do, and `gap` times between two steps of it (R206, R262; the count is the
model's device, notes/assumptions/2.md). -/
def State.turn (s : State) : Turn :=
  match s.inner with
  | .round j => .round j
  | .tail => .tail
  | .outside =>
    match s.pending with
    | [] => if s.running then .sequencer else .idle
    | op :: rest => if s.running && s.gap == 0 then .sequencer else .host op rest

/-- The state in which a host event acts: the event is off the queue. A run that the event starts
finds a fresh `gap`. -/
def State.hostGoes (s : State) (rest : List HostOp) : State :=
  if s.running then { s with pending := rest, gap := s.gap - 1 }
  else { s with pending := rest, gap := Config.gapDraw s.draws, draws := s.draws + 1 }

/-- The state in which a sequencer step acts: the next `gap` is drawn. -/
def State.sequencerGoes (s : State) : State :=
  { s with gap := Config.gapDraw s.draws, draws := s.draws + 1 }

/-- The state in which round `j` acts: the position inside the step has moved on (R124). -/
def State.roundGoes (s : State) (j : BitVec 6) : State :=
  { s with inner := if j = 63#6 then .tail else .round (j + 1#6) }

/-- The sequencer's step: the stage operation PHASE names (R196). -/
def State.sequencerStep (s : State) : Host.Outcome State Fault Refusal :=
  match decodePhase s.phase with
  | .ok i => exec i s.sequencerGoes
  | .error .idlePhase => .refused .idlePhase
  | .error (.reservedPhase p) => .refused (.reservedPhase p)
  | .error (.illegalCommand _) => .refused .idlePhase

/-- The next atomic event (R72). -/
def State.event (s : State) : Host.Outcome State Fault Refusal :=
  match s.turn with
  | .host op rest => hostEvent op (s.hostGoes rest)
  | .sequencer => s.sequencerStep
  | .round j => exec (decodeRound j) (s.roundGoes j)
  | .tail => .next s.compressTail
  | .idle => .next s

/-- The state from which a COMPRESS step is taken round by round (R124, R263; the model's own device,
notes/assumptions/10.md). -/
def State.compressBegin (s : State) : State := { s with sv := s.hs, inner := .round 0#6 }

/-- The state whose next event is the operation with code `c` (notes/assumptions/3.md): a CMD word as
the host's next write, a phase code as the pending step, a round index as the next round of a
COMPRESS step. -/
def State.place (s : State) (c : Code) : State :=
  match c with
  | .cmd w =>
    { s with
      inner := .outside
      rst := false
      pending := .write .w32 0x000#32 w :: s.pending
      gap := s.gap + 1 }
  | .phase p => { s with inner := .outside, rst := false, busy := true, phase := p, gap := 0 }
  | .round j => { s with inner := .round j, busy := true, phase := 5#4 }

end Sys2Proof.Machine
end

