-- ==== Sys2Proof/Machine/Step.lean ====
section
/-! DEFINITION. One step of the machine: its next atomic event (20_memory.md R72). -/

namespace Sys2Proof.Machine

/-- The next atomic event. -/
def step (s : State) : Host.Outcome State Fault Refusal := s.event

/-- `s` with an opcode-table word placed where the next step takes it; a word that is no code of the
engine places nothing. -/
def State.withFetchWord (s : State) (nbits w : Nat) : State :=
  match tableCode nbits w with
  | some c => s.place c
  | none => s

end Sys2Proof.Machine
end

