-- ==== Sys2Proof/Machine/HostProgram.lean ====
section
/-! DEFINITION. The host program notation: each form as the host events it expands to (30_encoding.md
R88). -/

namespace Sys2Proof.Machine

/-- `WR <reg>, <v>` at a byte offset. -/
def hostWr (off : Nat) (v : Word) : List HostOp := [.write .w32 (BitVec.ofNat 32 off) v]

/-- `RD <reg>` at a byte offset. -/
def hostRd (off : Nat) : List HostOp := [.read .w32 (BitVec.ofNat 32 off)]

/-- `CMD NOP`. -/
def hostCmdNop : List HostOp := hostWr 0x000 0x00000000#32

/-- `CMD START opts=<n>[, hex]`. -/
def hostCmdStart (opts : BitVec 4) (hexin : Bool) : List HostOp := hostWr 0x000 (startWord opts hexin)

/-- `CMD CLEAR`. -/
def hostCmdClear : List HostOp := hostWr 0x000 0x00000002#32

/-- `WAIT <reg>, <mask>, <val>` at a byte offset. -/
def hostWait (off : Nat) (mask want : Word) : List HostOp := [.wait (BitVec.ofNat 32 off) mask want]

/-- `LOADMSG <bytes B>`: the bytes in MSGBUF words, the last one padded with zero bytes, then
MSG_LEN. -/
def hostLoadMsg (B : List Byte) : List HostOp :=
  ((List.range ((B.length + 3) / 4)).map fun k =>
      hostWr (0x1000 + 4 * k) (le32 (B ++ List.replicate 3 0#8) (4 * k))).flatten ++
    hostWr 0x008 (BitVec.ofNat 32 B.length)

/-- A pulse of the reset input (R245). -/
def hostResetPulse : List HostOp := [.rst true, .rst false]

/-- The ASCII codes of a string's characters. -/
def asciiCodes (text : String) : List Byte := text.toList.map fun c => BitVec.ofNat 8 c.toNat

/-- `LOADHEX "<s>"`. -/
def hostLoadHex (text : String) : List HostOp := hostLoadMsg (asciiCodes text)

/-- `HASH <bytes B>, opts=<n>`. -/
def hostHash (B : List Byte) (opts : BitVec 4) : List HostOp :=
  hostLoadMsg B ++ hostWr 0x004 0x6#32 ++ hostCmdStart opts false ++ hostWait 0x004 0x1#32 0x0#32 ++
    hostRd 0x004 ++ hostRd 0x030 ++ hostRd 0x034 ++ hostRd 0x038 ++ hostRd 0x03C

end Sys2Proof.Machine
end

