-- ==== Sys2Proof/Safety.lean ====
section
/-! DEFINITION. What claims about the engine are stated in: the state invariant, the conditions
under which CHECK passes, and the hash of a run as one function of the message and the selector
(46_dispatcher.md R200). -/

namespace Sys2Proof.Machine

/-- CHECK passes: the length fits the buffer and, in hex mode, it is even and every character is a
hex character (R99). -/
def State.CheckPasses (s : State) : Prop :=
  s.msgLen.toNat ≤ s.cfg.msgBufBytes ∧
    (s.hexin = true →
      s.msgLen.toNat % 2 = 0 ∧ ∀ k < s.msgLen.toNat, (hexval (s.msgbuf.read k)).isSome = true)

/-- The work stream W of a message (R200). -/
def hashStream (c : Config) (opts : BitVec 4) (M : List Byte) : List Byte :=
  if opts.getLsbD 0 then cubicMix c.cubeTrunc (padMessage M) else padMessage M

/-- The per-block stages on block `B` from the state `h` (R200). -/
def hashBlock (c : Config) (opts : BitVec 4) (B : List Byte) (h : Quad) : Quad :=
  let h1 := compressBlock B h
  let h2 := if opts.getLsbD 1 then chaosState (chaosTable B) h1 else h1
  if opts.getLsbD 2 then henonState (henonArray c.henon) h2 else h2

/-- The hash state after the first `n` blocks of the stream `W` (R200). -/
def hashBlocks (c : Config) (opts : BitVec 4) (W : List Byte) : Nat → Quad
  | 0 => iv
  | n + 1 => hashBlock c opts (slice W (64 * n) (64 * n + 64)) (hashBlocks c opts W n)

/-- The terminal state of a run (R200). -/
def hashFinal (c : Config) (opts : BitVec 4) (M : List Byte) : Quad :=
  hashBlocks c opts (hashStream c opts M) ((hashStream c opts M).length / 64)

/-- `HASH(M, s)`, the 16 bytes of the digest (R200). -/
def hashBytes (c : Config) (opts : BitVec 4) (M : List Byte) : List Byte :=
  let PD := quadBytes (hashFinal c opts M)
  if opts.getLsbD 3 then PD.map (finalEntry c.finalSbox) else PD

/-- The number of sequencer steps of a run that passes CHECK, over `BT` blocks (R204). -/
def runSteps (opts : BitVec 4) (BT : Nat) : Nat :=
  2 + (opts.getLsbD 0).toNat + (opts.getLsbD 2).toNat +
    BT * (1 + (opts.getLsbD 1).toNat + (opts.getLsbD 2).toNat) + (opts.getLsbD 3).toNat + 1

/-- The next event is the host's first pending one (the count `gap` is the model's device,
notes/assumptions/2.md). -/
def State.HostTurn (s : State) (op : HostOp) (rest : List HostOp) : Prop :=
  s.inner = .outside ∧ s.pending = op :: rest ∧ (s.running = true → s.gap ≠ 0)

/-- The next event is a bus transaction that the port answers: `rst` is not asserted (R245). -/
def State.BusTurn (s : State) (op : HostOp) (rest : List HostOp) : Prop :=
  s.HostTurn op rest ∧ s.rst = false

/-- The next event is a sequencer step (R196). -/
def State.SequencerTurn (s : State) : Prop :=
  s.inner = .outside ∧ s.running = true ∧ (s.pending = [] ∨ s.gap = 0)

/-! ### What an event leaves unchanged -/

/-- The host's inputs: the configuration, MSG_LEN, IRQ_EN, every byte of MSGBUF and the level of
`rst`. -/
structure State.KeepsInputs (s t : State) : Prop where
  cfg : t.cfg = s.cfg
  msgLen : t.msgLen = s.msgLen
  doneIe : t.doneIe = s.doneIe
  errIe : t.errIe = s.errIe
  bytes : ∀ a, t.msgbuf.read a = s.msgbuf.read a
  rst : t.rst = s.rst

/-- The STATUS fields other than PHASE, and ERRINFO. -/
structure State.KeepsFlags (s t : State) : Prop where
  busy : t.busy = s.busy
  done : t.done = s.done
  err : t.err = s.err
  errcode : t.errcode = s.errcode
  errinfo : t.errinfo = s.errinfo
  opts : t.opts = s.opts
  hexin : t.hexin = s.hexin

/-- The hidden files that one stage writes for another: SV, CT, HA, WORK, RUN_N and DG. -/
structure State.KeepsHidden (s t : State) : Prop where
  sv : t.sv = s.sv
  ct : t.ct = s.ct
  ha : t.ha = s.ha
  work : t.work = s.work
  runN : t.runN = s.runN
  dg : t.dg = s.dg

/-- The results the host can read: HS, DIGEST, BLOCK_CNT and BLOCK_TOTAL. -/
structure State.KeepsResults (s t : State) : Prop where
  hs : t.hs = s.hs
  digest : t.digest = s.digest
  blockCnt : t.blockCnt = s.blockCnt
  blockTotal : t.blockTotal = s.blockTotal

/-- The model's own fields, and the place inside a COMPRESS step. -/
structure State.KeepsHost (s t : State) : Prop where
  inner : t.inner = s.inner
  pending : t.pending = s.pending
  answer : t.answer = s.answer
  gap : t.gap = s.gap
  draws : t.draws = s.draws

/-- Everything but the hash state HS. -/
structure State.KeepsAllButHash (s t : State) : Prop where
  inputs : s.KeepsInputs t
  flags : s.KeepsFlags t
  hidden : s.KeepsHidden t
  host : s.KeepsHost t
  phase : t.phase = s.phase
  digest : t.digest = s.digest
  blockCnt : t.blockCnt = s.blockCnt
  blockTotal : t.blockTotal = s.blockTotal

/-- Every register of R50 at its value after a hard reset, and the IRQ output (R50, R245). -/
structure State.AtReset (s : State) : Prop where
  status : s.statusWord = 0#32
  msgLen : s.msgLen = 0#32
  irqEn : s.irqEnWord = 0#32
  errinfo : s.errinfo = 0#32
  blockCnt : s.blockCnt = 0#32
  blockTotal : s.blockTotal = 0#32
  hs : s.hs = ⟨0x67452301#32, 0xEFCDAB89#32, 0x98BADCFE#32, 0x10325476#32⟩
  digest : ∀ k, s.digest.get k = 0#32
  irq : s.irq = false

/-- The end of the block in progress, `i = BLOCK_CNT` in `s` (R198). -/
def State.EndsBlock (s t : State) : Prop :=
  t.blockCnt = s.blockCnt + 1#32 ∧
    (s.blockCnt.toNat + 1 < s.blockTotal.toNat → t.phase = 5#4) ∧
      (s.blockCnt.toNat + 1 = s.blockTotal.toNat → t.phase = if s.option 4 then 8#4 else 9#4)

/-! ### The source's own wording of the arithmetic -/

/-- `B[o] + 256·B[o+1] + 65536·B[o+2] + 16777216·B[o+3]` (R15). -/
def leWord (B : List Byte) (o : Nat) : Word :=
  BitVec.ofNat 32
    ((byteAt B o).toNat + 256 * (byteAt B (o + 1)).toNat + 65536 * (byteAt B (o + 2)).toNat +
      16777216 * (byteAt B (o + 3)).toNat)

/-- Round `j` in the source's sequential form: temp=d; d=c; c=b; b=b+rotl(a+f+T[j]+word(g),7); a=temp,
with f and g by the source's boundaries 16, 32 and 48 (R118 to R123). -/
def sourceRound (B : List Byte) (q : Quad) (j : Nat) : Quad :=
  let f : Word :=
    if j < 16 then (q.b &&& q.c) ||| (~~~q.b &&& q.d)
    else if j < 32 then (q.d &&& q.b) ||| (~~~q.d &&& q.c)
    else if j < 48 then q.b ^^^ q.c ^^^ q.d
    else q.c ^^^ (q.b ||| ~~~q.d)
  let g : Nat :=
    if j < 16 then j
    else if j < 32 then (5 * j + 1) % 16
    else if j < 48 then (3 * j + 5) % 16
    else 7 * j % 16
  let temp := q.d
  let d := q.c
  let c := q.b
  let b := q.b + (q.a + f + roundConstants.getD j 0#32 + leWord B (4 * g)).rotateLeft 7
  ⟨temp, b, c, d⟩

/-! ### Correct rounding -/

/-- `r` is the binary64 value that rounding `num / den` units of 2^-1074 to nearest, ties to even, gives
(R13): it is finite exactly below the midpoint of the largest finite value and 2^1024; it is then as
near to the ratio as any finite value, and even where one of another value is as near; and past that
midpoint it is the infinity of the ratio's sign (PRESUMED, notes/assumptions/15.md). -/
structure NearestEven (num : Int) (den : Nat) (r : F64) : Prop where
  finite : f64Finite r = true ↔ num.natAbs < den * ((2 ^ 54 - 1) * 2 ^ 2044)
  nearest : f64Finite r = true → ∀ y, f64Finite y = true →
    (num - den * f64Signed r).natAbs ≤ (num - den * f64Signed y).natAbs
  even : f64Finite r = true → ∀ y, f64Finite y = true → f64Signed y ≠ f64Signed r →
    (num - den * f64Signed y).natAbs = (num - den * f64Signed r).natAbs → r.toNat % 2 = 0
  infinite : f64Finite r = false → r = f64Inf (decide (num < 0))

/-- What holds in every state a run can reach. -/
structure State.Inv (s : State) : Prop where
  /-- MSGBUF is in canonical form. -/
  memory_wf : s.msgbuf.wf
  /-- MSGBUF lists no index at or above its capacity (R37). -/
  memory_bounded : ∀ c ∈ s.msgbuf.cells, c.1 < s.cfg.msgBufBytes
  /-- Phase codes 10 to 15 never appear (R86). -/
  phase_legal : s.phase.toNat ≤ 9
  /-- BUSY = 1 exactly when PHASE is not IDLE (R24). -/
  busy_iff_phase : s.busy = true ↔ s.phase ≠ 0#4
  /-- A run in progress has cleared DONE (R192, R183). -/
  busy_not_done : s.busy = true → s.done = false
  /-- ERRCODE names an error of R221. -/
  errcode_legal : s.errcode.toNat ≤ 5
  /-- ERR = 1 exactly when an error is recorded (R22). -/
  err_iff_code : s.err = true ↔ s.errcode ≠ 0#4
  /-- ERRINFO is 0 when ERR = 0 (R29). -/
  errinfo_zero : s.err = false → s.errinfo = 0#32
  /-- BLOCK_CNT never exceeds BLOCK_TOTAL (R41, R198). -/
  cnt_le_total : s.blockCnt.toNat ≤ s.blockTotal.toNat
  /-- A phase runs only when its option is on (R197). -/
  phase_option :
    (s.phase = 3#4 → s.option 1 = true) ∧ (s.phase = 4#4 → s.option 3 = true) ∧
      (s.phase = 6#4 → s.option 2 = true) ∧ (s.phase = 7#4 → s.option 3 = true) ∧
        (s.phase = 8#4 → s.option 4 = true)
  /-- PAD is pending only for a message that fits MSGBUF (R99). -/
  pad_fits : s.phase = 2#4 → s.msgLen.toNat ≤ s.cfg.msgBufBytes
  /-- While CUBESUM is pending, WORK holds the padded message, 192 bytes short (R142). -/
  cubesum_work : s.phase = 3#4 → s.work.length + 192 = 64 * s.blockTotal.toNat
  /-- From HENONGEN to OUTPUT, WORK holds exactly BLOCK_TOTAL blocks (R32). -/
  stream_work : 4 ≤ s.phase.toNat → s.work.length = 64 * s.blockTotal.toNat
  /-- Every run has a block (R198). -/
  total_pos : 3 ≤ s.phase.toNat → 0 < s.blockTotal.toNat
  /-- A block is in progress during the per-block phases (R196). -/
  block_pending : 5 ≤ s.phase.toNat → s.phase.toNat ≤ 7 → s.blockCnt.toNat < s.blockTotal.toNat
  /-- All blocks are complete at FINAL and OUTPUT (R198). -/
  blocks_done : 8 ≤ s.phase.toNat → s.blockCnt = s.blockTotal
  /-- A round is pending only inside a COMPRESS step (R40). -/
  inner_phase : s.inner ≠ .outside → s.phase = 5#4
  /-- While `rst` is asserted the engine holds the reset state (R245). -/
  reset_held : s.rst = true → s.AtReset

end Sys2Proof.Machine
end

