-- ==== Sys2Proof/Certificates/Slice0/Obligations.lean ====
section
/-! DEFINITION. The statements for the provers. -/

open Sys2Proof Sys2Proof.Machine

/-! ### Encoding -/

/-- R82, R86, R87: decoding the code of a well-formed operation gives it back, for every
operation and every operand. -/
def Obligations.DecodeOfEncode : Prop :=
  ∀ i : Instr, i.wf = true → decode (encode i) = .ok i

/-- R82, R86, R87, R89: a code that decodes is the code of the operation it decodes to, and that
operation is well-formed; so no two codes stand for one operation. -/
def Obligations.EncodeOfDecode : Prop :=
  ∀ (c : Code) (i : Instr), decode c = .ok i → encode i = c ∧ i.wf = true

/-- R82: the three patterns, by mask and match, and the START fields v[11:8] and v[12]; a write of any
other word raises ILLEGAL (R226). -/
def Obligations.LegalCommandWords : Prop :=
  ∀ w : Word,
    (decodeCmd w = .ok .nop ↔ w &&& 0xFFFFFFFF#32 = 0x00000000#32) ∧
      (decodeCmd w = .ok .clear ↔ w &&& 0xFFFFFFFF#32 = 0x00000002#32) ∧
        (∀ o x, decodeCmd w = .ok (.start o x) ↔
          w &&& 0xFFFFE0FF#32 = 0x00000001#32 ∧ o = w.extractLsb' 8 4 ∧ x = w.getLsbD 12) ∧
          (w ≠ 0x00000000#32 → w ≠ 0x00000002#32 → w &&& 0xFFFFE0FF#32 ≠ 0x00000001#32 →
            ∀ s, ∃ t, writeCmd w s = .next t ∧ t.err = true ∧ t.errcode = 4#4 ∧ t.errinfo = w)

/-- R90, R86, R87: words written out from the spec decode to what they stand for. -/
def Obligations.WordsOfTheSpecDecode : Prop :=
  decodeCmd 0x00000001#32 = .ok (.start 0#4 false) ∧
    decodeCmd 0x00000501#32 = .ok (.start 5#4 false) ∧
      decodeCmd 0x00001F01#32 = .ok (.start 15#4 true) ∧
        decodeCmd 0x00000003#32 = .error (.illegalCommand 0x00000003#32) ∧
          decodeCmd 0x00000100#32 = .error (.illegalCommand 0x00000100#32) ∧
            decodePhase 1#4 = .ok .check ∧ decodePhase 9#4 = .ok .output ∧
              decodePhase 10#4 = .error (.reservedPhase 10#4) ∧
                decodeRound 0#6 = .roundF 0#6 ∧ decodeRound 16#6 = .roundG 16#6 ∧
                  decodeRound 47#6 = .roundH 47#6 ∧ decodeRound 63#6 = .roundI 63#6

/-! ### Host commands -/

/-- R191: NOP, the command word 0x00000000, has no effect on any state. -/
def Obligations.NopChangesNothing : Prop :=
  decodeCmd 0x00000000#32 = .ok .nop ∧ ∀ s : State, exec .nop s = .next s

/-- R192: an accepted START, from its command word by mask and match with v[11:8] and v[12], and what
it does not touch. The STATUS word is R192's own: BUSY 1, PHASE 1, OPTS, HEXIN, and DONE, ERR and
ERRCODE 0; the IRQ line falls. -/
def Obligations.StartAcceptedWhileIdle : Prop :=
  ∀ (s : State) (o : BitVec 4) (x : Bool) (v : Word), s.busy = false →
    v &&& 0xFFFFE0FF#32 = 0x00000001#32 → v.extractLsb' 8 4 = o → v.getLsbD 12 = x →
      ∃ t, exec (.start o x) s = .next t ∧ writeCmd v s = .next t ∧
        t.statusWord.toNat = 0x101 + 4096 * o.toNat + 65536 * x.toNat ∧
          t.errinfo = 0#32 ∧ t.irq = false ∧
            s.KeepsInputs t ∧ s.KeepsHidden t ∧ s.KeepsResults t ∧ s.KeepsHost t

/-- R193, R225: a START while BUSY = 1 raises BUSY with the command word, and changes nothing else. -/
def Obligations.StartRefusedWhileBusy : Prop :=
  ∀ (s : State) (o : BitVec 4) (x : Bool) (v : Word), s.busy = true →
    v &&& 0xFFFFE0FF#32 = 0x00000001#32 → v.extractLsb' 8 4 = o → v.getLsbD 12 = x →
      ∃ t, exec (.start o x) s = .next t ∧ writeCmd v s = .next t ∧ t.err = true ∧
        t.errcode = 3#4 ∧ t.errinfo = v ∧
          t.busy = true ∧ t.phase = s.phase ∧ t.done = s.done ∧ t.opts = s.opts ∧ t.hexin = s.hexin ∧
            s.KeepsInputs t ∧ s.KeepsHidden t ∧ s.KeepsResults t ∧ s.KeepsHost t

/-- R194, R51: CLEAR in every state; MSGBUF, MSG_LEN and IRQ_EN keep their values, STATUS reads 0, the
sequencer is at (IDLE, 0) and the IRQ line is 0. -/
def Obligations.ClearResetsAllButInputs : Prop :=
  ∀ s : State, ∃ t, exec .clear s = .next t ∧
    t.statusWord = 0#32 ∧ t.phase = 0#4 ∧ t.errinfo = 0#32 ∧ t.blockCnt = 0#32 ∧
      t.blockTotal = 0#32 ∧
      t.hs = ⟨0x67452301#32, 0xEFCDAB89#32, 0x98BADCFE#32, 0x10325476#32⟩ ∧
        (∀ k, t.digest.get k = 0#32) ∧ t.irq = false ∧ t.inner = .outside ∧ s.KeepsInputs t

/-- R190, R226: the order in which a CMD write is handled, for every word and every state: ILLEGAL
before everything else, NOP and CLEAR in every state, BUSY for a START while BUSY = 1, and else the
START is accepted. -/
def Obligations.CommandWriteOrder : Prop :=
  ∀ (s : State) (v : Word),
    (v = 0x00000000#32 → writeCmd v s = .next s) ∧
      (v = 0x00000002#32 → ∃ t, writeCmd v s = .next t ∧ t.statusWord = 0#32 ∧ s.KeepsInputs t) ∧
        (v &&& 0xFFFFE0FF#32 = 0x00000001#32 → s.busy = true →
          ∃ t, writeCmd v s = .next t ∧ t.err = true ∧ t.errcode = 3#4 ∧ t.errinfo = v ∧
            t.busy = true ∧ t.phase = s.phase ∧ t.done = s.done ∧ t.opts = s.opts ∧
              t.hexin = s.hexin ∧ s.KeepsInputs t ∧ s.KeepsHidden t ∧ s.KeepsResults t ∧
                s.KeepsHost t) ∧
          (v &&& 0xFFFFE0FF#32 = 0x00000001#32 → s.busy = false →
            ∃ t, writeCmd v s = .next t ∧ t.busy = true ∧ t.phase = 1#4 ∧
              t.opts = v.extractLsb' 8 4 ∧ t.hexin = v.getLsbD 12) ∧
            (v ≠ 0x00000000#32 → v ≠ 0x00000002#32 → v &&& 0xFFFFE0FF#32 ≠ 0x00000001#32 →
              ∃ t, writeCmd v s = .next t ∧ t.err = true ∧ t.errcode = 4#4 ∧ t.errinfo = v ∧
                t.busy = s.busy ∧ t.phase = s.phase ∧ t.done = s.done ∧ t.opts = s.opts ∧
                  t.hexin = s.hexin ∧ s.KeepsInputs t ∧ s.KeepsHidden t ∧ s.KeepsResults t ∧
                    s.KeepsHost t)

/-! ### CHECK and PAD -/

/-- R99, R40, R205: a CHECK that finds no error moves the sequencer position to (PAD, 0), so that BLOCK_CNT
reads 0, and raises nothing. R207's trace has BLOCK_CNT keep its old value in this step
(DEDUCED, notes/assumptions/9.md). -/
def Obligations.CheckPassesToPad : Prop :=
  ∀ s : State, s.CheckPasses →
    ∃ t, exec .check s = .next t ∧ t.seqPosition = (2#4, 0#32) ∧ t.blockCnt = 0#32 ∧
      s.KeepsInputs t ∧ s.KeepsFlags t ∧ s.KeepsHidden t ∧ t.hs = s.hs ∧ t.digest = s.digest ∧
        t.blockTotal = s.blockTotal ∧ s.KeepsHost t

/-- R224, R220, R222: LENGTH ends the run, with MSG_LEN as its information, and changes nothing else. -/
def Obligations.CheckRaisesLength : Prop :=
  ∀ s : State, s.cfg.msgBufBytes < s.msgLen.toNat →
    ∃ t, exec .check s = .next t ∧ t.err = true ∧ t.errcode = 2#4 ∧ t.errinfo = s.msgLen ∧
      t.busy = false ∧ t.phase = 0#4 ∧ t.done = s.done ∧ t.opts = s.opts ∧ t.hexin = s.hexin ∧
        s.KeepsInputs t ∧ s.KeepsHidden t ∧ s.KeepsResults t ∧ s.KeepsHost t

/-- R223, R230, R220: in hex mode an odd length ends the run with FORMAT and MSG_LEN, whatever the
characters are. -/
def Obligations.CheckRaisesFormatOnOddLength : Prop :=
  ∀ s : State, s.msgLen.toNat ≤ s.cfg.msgBufBytes → s.hexin = true → s.msgLen.toNat % 2 = 1 →
    ∃ t, exec .check s = .next t ∧ t.err = true ∧ t.errcode = 1#4 ∧ t.errinfo = s.msgLen ∧
      t.busy = false ∧ t.phase = 0#4 ∧ t.done = s.done ∧ t.opts = s.opts ∧ t.hexin = s.hexin ∧
        s.KeepsInputs t ∧ s.KeepsHidden t ∧ s.KeepsResults t ∧ s.KeepsHost t

/-- R223, R230, R220: in hex mode the lowest non-hex character among an even number of them ends the
run with FORMAT and its index. -/
def Obligations.CheckRaisesFormatOnLowestNonHex : Prop :=
  ∀ (s : State) (k : Nat), s.msgLen.toNat ≤ s.cfg.msgBufBytes → s.hexin = true →
    s.msgLen.toNat % 2 = 0 → k < s.msgLen.toNat → hexval (s.msgbuf.read k) = none →
      (∀ i < k, (hexval (s.msgbuf.read i)).isSome = true) →
        ∃ t, exec .check s = .next t ∧ t.err = true ∧ t.errcode = 1#4 ∧ t.errinfo.toNat = k ∧
          t.busy = false ∧ t.phase = 0#4 ∧ t.done = s.done ∧ t.opts = s.opts ∧ t.hexin = s.hexin ∧
            s.KeepsInputs t ∧ s.KeepsHidden t ∧ s.KeepsResults t ∧ s.KeepsHost t

/-- R96: which characters have a digit value, and which. -/
def Obligations.HexDigitValues : Prop :=
  ∀ c : Byte,
    (0x30 ≤ c.toNat → c.toNat ≤ 0x39 → (hexval c).map BitVec.toNat = some (c.toNat - 0x30)) ∧
      (0x61 ≤ c.toNat → c.toNat ≤ 0x66 → (hexval c).map BitVec.toNat = some (c.toNat - 0x61 + 10)) ∧
        (0x41 ≤ c.toNat → c.toNat ≤ 0x46 → (hexval c).map BitVec.toNat = some (c.toNat - 0x41 + 10)) ∧
          ((¬(0x30 ≤ c.toNat ∧ c.toNat ≤ 0x39) ∧ ¬(0x61 ≤ c.toNat ∧ c.toNat ≤ 0x66) ∧
            ¬(0x41 ≤ c.toNat ∧ c.toNat ≤ 0x46)) → hexval c = none)

/-- R97, R98: hexdecode of every even-length string of hex characters, in either letter case: half as
many bytes, M[k] = 16·hexval(C[2k]) + hexval(C[2k+1]). And of the lowercase rendering of a byte
string it is that string. -/
def Obligations.HexDecodeOfRender : Prop :=
  (∀ C : List Byte, C.length % 2 = 0 → (∀ i < C.length, (hexval (byteAt C i)).isSome = true) →
    (hexdecode C).length = C.length / 2 ∧
      ∀ k < C.length / 2, ∀ hi lo, hexval (byteAt C (2 * k)) = some hi →
        hexval (byteAt C (2 * k + 1)) = some lo →
          (byteAt (hexdecode C) k).toNat = 16 * hi.toNat + lo.toNat) ∧
    ∀ M : List Byte, hexdecode (M.map hexRender).flatten = M

/-- R104, R105: the padded message: its length with z = (55 - n) mod 64 zero bytes, which is 64 times
the least count of blocks that hold n + 9 bytes; the message, the 0x80 byte, the zero bytes and the
little-endian bit length. -/
def Obligations.PaddedMessageLayout : Prop :=
  ∀ M : List Byte,
    ((padMessage M).length : Int) = M.length + 9 + (55 - (M.length : Int)) % 64 ∧
      (padMessage M).length = 64 * ((M.length + 9 + 63) / 64) ∧
        (∀ k < M.length, byteAt (padMessage M) k = byteAt M k) ∧
          byteAt (padMessage M) M.length = 0x80#8 ∧
            (∀ k, M.length < k → k + 8 < (padMessage M).length → byteAt (padMessage M) k = 0#8) ∧
              ∀ k < 8, (byteAt (padMessage M) ((padMessage M).length - 8 + k)).toNat =
                8 * M.length % 2 ^ 64 / 256 ^ k % 256

/-- R106, R103: PAD sets up the run in every state; after a CHECK that succeeded it loads the message M
and pads it into WORK. What PAD loads where CHECK would have failed is the model's choice
(notes/assumptions/16.md), and nothing is said about it here. -/
def Obligations.PadSetsUpRun : Prop :=
  ∀ s : State,
    ∃ t, exec .pad s = .next t ∧
      (s.CheckPasses → s.hexin = false → t.runN = s.msgLen ∧
        t.work = padMessage ((List.range s.msgLen.toNat).map s.msgbuf.read)) ∧
        (s.CheckPasses → s.hexin = true → t.runN.toNat = s.msgLen.toNat / 2 ∧
          t.work = padMessage (hexdecode ((List.range s.msgLen.toNat).map s.msgbuf.read))) ∧
          t.hs = ⟨0x67452301#32, 0xEFCDAB89#32, 0x98BADCFE#32, 0x10325476#32⟩ ∧
            t.blockCnt = 0#32 ∧
              t.blockTotal = BitVec.ofNat 32 ((t.work.length + 192 * (s.opts.getLsbD 0).toNat) / 64) ∧
                t.phase = (if s.opts.getLsbD 0 then 3#4 else if s.opts.getLsbD 2 then 4#4 else 5#4) ∧
                  s.KeepsInputs t ∧ s.KeepsFlags t ∧ t.sv = s.sv ∧ t.ct = s.ct ∧ t.ha = s.ha ∧
                    t.dg = s.dg ∧ t.digest = s.digest ∧ s.KeepsHost t

/-! ### The cubic-sum mixer -/

/-- R137: the value that serialisation into N bytes keeps: the low-order bytes or the high-order
ones of an over-long number, and all of a number that fits, in N bytes. -/
def Obligations.SerialisationKeepsOneEnd : Prop :=
  ∀ (N v : Nat),
    (ser .keepLow N v).length = N ∧ (ser .keepHigh N v).length = N ∧
      intBe (ser .keepLow N v) = v % 256 ^ N ∧
        (v < 256 ^ N → intBe (ser .keepHigh N v) = v) ∧
          ∀ k, 256 ^ (k - 1) ≤ v → v < 256 ^ k → N < k →
            intBe (ser .keepHigh N v) = v / 256 ^ (k - N)

/-- R141, R138, R139, R140: the mixer's output is 192 bytes longer than its input, each group is
replaced in its place, and the binding segment comes last. -/
def Obligations.MixerOutputLayout : Prop :=
  ∀ (trunc : CubeTrunc) (P : List Byte), 64 ≤ P.length → P.length % 64 = 0 →
    (cubicMix trunc P).length = P.length + 192 ∧
      (∀ t, 192 * t < P.length →
        slice (cubicMix trunc P) (192 * t) (min (192 * t + 192) P.length) =
          ser trunc (min 192 (P.length - 192 * t))
            (((List.range ((min 192 (P.length - 192 * t)) / 64)).map fun u =>
              intBe (slice P (192 * t + 64 * u) (192 * t + 64 * u + 64)) ^ 3).sum)) ∧
        slice (cubicMix trunc P) P.length (P.length + 192) =
          ser trunc 192
            (intBe (slice P 0 64) ^ 3 + intBe (if P.length = 64 then slice P 0 64 else slice P 64 128) ^ 3 +
              intBe (slice P (P.length - 64) P.length) ^ 3)

/-- R142: CUBESUM puts the mixer output of the L bytes PAD left into WORK, and moves on. -/
def Obligations.CubesumReplacesStream : Prop :=
  ∀ s : State, s.work.length + 192 = 64 * s.blockTotal.toNat →
    ∃ t, exec .cubesum s = .next t ∧ t.work = cubicMix s.cfg.cubeTrunc s.work ∧
      t.phase = (if s.opts.getLsbD 2 then 4#4 else 5#4) ∧ t.blockCnt = 0#32 ∧
        s.KeepsInputs t ∧ s.KeepsFlags t ∧ t.sv = s.sv ∧ t.ct = s.ct ∧ t.ha = s.ha ∧
          t.runN = s.runN ∧ t.dg = s.dg ∧ t.hs = s.hs ∧ t.digest = s.digest ∧
            t.blockTotal = s.blockTotal ∧ s.KeepsHost t

/-! ### The compression core -/

/-- R118 to R123: each round operation, for every index of its own group (a well-formed operation): the
new b is the old b plus the sum rotated
left by 7, with f, g, T[j] and the message word of its rule; a, c and d take the old d, b and c; nothing
else changes. -/
def Obligations.RoundOperationsUpdateState : Prop :=
  ∀ (s : State) (j : BitVec 6),
    ((Instr.roundF j).wf = true → ∃ t, exec (.roundF j) s = .next t ∧ s.KeepsAllButHash t ∧
      t.hs = ⟨s.hs.d,
        s.hs.b + (s.hs.a + ((s.hs.b &&& s.hs.c) ||| (~~~s.hs.b &&& s.hs.d)) +
          roundConstants.getD j.toNat 0#32 + leWord s.block (4 * (j.toNat % 16))).rotateLeft 7,
        s.hs.b, s.hs.c⟩) ∧
      ((Instr.roundG j).wf = true → ∃ t, exec (.roundG j) s = .next t ∧ s.KeepsAllButHash t ∧
        t.hs = ⟨s.hs.d,
          s.hs.b + (s.hs.a + ((s.hs.d &&& s.hs.b) ||| (~~~s.hs.d &&& s.hs.c)) +
            roundConstants.getD j.toNat 0#32 + leWord s.block (4 * ((5 * j.toNat + 1) % 16))).rotateLeft 7,
          s.hs.b, s.hs.c⟩) ∧
        ((Instr.roundH j).wf = true → ∃ t, exec (.roundH j) s = .next t ∧ s.KeepsAllButHash t ∧
          t.hs = ⟨s.hs.d,
            s.hs.b + (s.hs.a + (s.hs.b ^^^ s.hs.c ^^^ s.hs.d) +
              roundConstants.getD j.toNat 0#32 + leWord s.block (4 * ((3 * j.toNat + 5) % 16))).rotateLeft 7,
            s.hs.b, s.hs.c⟩) ∧
          ((Instr.roundI j).wf = true → ∃ t, exec (.roundI j) s = .next t ∧ s.KeepsAllButHash t ∧
            t.hs = ⟨s.hs.d,
              s.hs.b + (s.hs.a + (s.hs.c ^^^ (s.hs.b ||| ~~~s.hs.d)) +
                roundConstants.getD j.toNat 0#32 + leWord s.block (4 * (7 * j.toNat % 16))).rotateLeft 7,
              s.hs.b, s.hs.c⟩)

/-- R124: COMPRESS saves the state, runs the 64 rounds of the source's sequential form, adds the saved
state, and moves on. -/
def Obligations.CompressRunsSourceRounds : Prop :=
  ∀ s : State,
    ∃ t, exec .compress s = .next t ∧ t.sv = s.hs ∧
      t.hs = quadAdd ((List.range 64).foldl (sourceRound s.block) s.hs) s.hs ∧
        (s.opts.getLsbD 1 = true → t.phase = 6#4 ∧ t.blockCnt = s.blockCnt) ∧
          (s.opts.getLsbD 1 = false → s.opts.getLsbD 2 = true →
            t.phase = 7#4 ∧ t.blockCnt = s.blockCnt) ∧
            (s.opts.getLsbD 1 = false → s.opts.getLsbD 2 = false → s.EndsBlock t) ∧
              s.KeepsInputs t ∧ s.KeepsFlags t ∧ t.ct = s.ct ∧ t.ha = s.ha ∧ t.work = s.work ∧
                t.runN = s.runN ∧ t.dg = s.dg ∧ t.digest = s.digest ∧ t.blockTotal = s.blockTotal ∧
                  t.pending = s.pending ∧ t.answer = s.answer ∧ t.gap = s.gap ∧ t.draws = s.draws

/-- R124, R263: a COMPRESS step taken as 64 rounds and the additive update, one step of the machine
each, ends in the state of the one atomic COMPRESS step. That the machine can be set to take the step
round by round is the model's own device (DESIGN CHOICE, notes/assumptions/10.md). -/
def Obligations.CompressEqualsItsRounds : Prop :=
  ∀ s : State, core.run 65 s.compressBegin = exec .compress s

/-- R117, R42: the table T, all 64 words in the rule's rows, which the round statements read. -/
def Obligations.RoundConstantsAreTheTable : Prop :=
  roundConstants.length = 64 ∧ ∀ j : BitVec 6, roundConstant j =
    ([0xd76aa478, 0xe8c7b756, 0x242070db, 0xc1bdceee, 0xf57c0faf, 0x4787c62a, 0xa8304613, 0xfd469501,
      0x698098d8, 0x8b44f7af, 0xffff5bb1, 0x895cd7be, 0x6b901122, 0xfd987193, 0xa679438e, 0x49b40821,
      0xf61e2562, 0xc040b340, 0x265e5a51, 0xe9b6c7aa, 0xd62f105d, 0x02441453, 0xd8a1e681, 0xe7d3fbc8,
      0x21e1cde6, 0xc33707d6, 0xf4d50d87, 0x455a14ed, 0xa9e3e905, 0xfcefa3f8, 0x676f02d9, 0x8d2a4c8a,
      0xfffa3942, 0x8771f681, 0x6d9d6122, 0xfde5380c, 0xa4beea44, 0x4bdecfa9, 0xf6bb4b60, 0xbebfbc70,
      0x289b7ec6, 0xeaa127fa, 0xd4ef3085, 0x04881d05, 0xd9d4d039, 0xe6db99e5, 0x1fa27cf8, 0xc4ac5665,
      0xf4292244, 0x432aff97, 0xab9423a7, 0xfc93a039, 0x655b59c3, 0x8f0ccc92, 0xffeff47d, 0x85845dd1,
      0x6fa87e4f, 0xfe2ce6e0, 0xa3014314, 0x4e0811a1, 0xf7537e82, 0xbd3af235, 0x2ad7d2bb, 0xeb86d391] :
        List Word).getD j.toNat 0#32

/-! ### Options 2 and 3 -/

/-- R151 to R154: CHAOS builds the table from the block's bytes 0, 32 and 63, substitutes every byte of
the four state words through it, and moves on. -/
def Obligations.ChaosSubstitutesState : Prop :=
  ∀ s : State,
    ∃ t, exec .chaos s = .next t ∧
      (∀ k : Fin 256, t.ct[k].toNat =
        f64FloorMod
          (fmul
            ((fun x => fmul (fmul (fsub (f64Dec 39 1)
                (fmul (f64OfNat (byteAt s.block 0).toNat) (f64Dec 1 3))) x) (fsub (f64OfNat 1) x))^[k.val + 1]
              (fsub (f64Dec 5457 4)
                (fmul (fmul (f64OfNat (byteAt s.block 63).toNat) (f64Dec 2 6))
                  (f64OfNat (byteAt s.block 32).toNat))))
            (f64OfNat 256)) 256) ∧
        (∀ r m : Fin 4, (t.hs.get r).extractLsb' (8 * m.val) 8 =
          t.ct[((s.hs.get r).extractLsb' (8 * m.val) 8).toFin]) ∧
          (s.opts.getLsbD 2 = true → t.phase = 7#4 ∧ t.blockCnt = s.blockCnt) ∧
            (s.opts.getLsbD 2 = false → s.EndsBlock t) ∧
              s.KeepsInputs t ∧ s.KeepsFlags t ∧ t.sv = s.sv ∧ t.ha = s.ha ∧ t.work = s.work ∧
                t.runN = s.runN ∧ t.dg = s.dg ∧ t.digest = s.digest ∧ t.blockTotal = s.blockTotal ∧
                  s.KeepsHost t

/-- R165 to R169: HENONGEN fills the array with the 32 cells of the configuration's orbit, from
(0.1, 0.1), and moves on to COMPRESS. -/
def Obligations.HenongenFillsArray : Prop :=
  ∀ s : State,
    ∃ t, exec .henongen s = .next t ∧
      (∀ k : Fin 32, t.ha[k].toNat =
        f64FloorMod
          (fmul
            ((fun p : F64 × F64 =>
                (fadd (fsub (f64OfNat 1) (fmul s.cfg.henon.a (fmul p.1 p.1))) p.2,
                  fmul s.cfg.henon.b p.1))^[k.val + 1] (f64Dec 1 1, f64Dec 1 1)).1
            s.cfg.henon.range) 16) ∧
        t.phase = 5#4 ∧ t.blockCnt = 0#32 ∧
          s.KeepsInputs t ∧ s.KeepsFlags t ∧ t.sv = s.sv ∧ t.ct = s.ct ∧ t.work = s.work ∧
            t.runN = s.runN ∧ t.dg = s.dg ∧ t.hs = s.hs ∧ t.digest = s.digest ∧
              t.blockTotal = s.blockTotal ∧ s.KeepsHost t

/-- R170: HENONMIX multiplies hex digit i of word r, from the left, by HA[r][i] modulo 16, and ends the
block. -/
def Obligations.HenonmixMultipliesDigits : Prop :=
  ∀ s : State,
    ∃ t, exec .henonmix s = .next t ∧
      (∀ (r : Fin 4) (i : Fin 8), ((t.hs.get r).extractLsb' (28 - 4 * i.val) 4).toNat =
        ((s.hs.get r).extractLsb' (28 - 4 * i.val) 4).toNat *
          (s.ha[8 * r.val + i.val]'(by omega)).toNat % 16) ∧
        s.EndsBlock t ∧ s.KeepsInputs t ∧ s.KeepsFlags t ∧ s.KeepsHidden t ∧ t.digest = s.digest ∧
          t.blockTotal = s.blockTotal ∧ s.KeepsHost t

/-! ### The final substitution and the digest -/

/-- R181, R182: FINAL substitutes each byte of the pre-digest, PD[4k+m] = HS[k][8m+7:8m], and leaves HS. -/
def Obligations.FinalSubstitutesPreDigest : Prop :=
  ∀ s : State,
    ∃ t, exec .finalSub s = .next t ∧
      (∀ k m : Fin 4, t.dg[4 * k.val + m.val]'(by omega) =
        s.cfg.finalSbox[((s.hs.get k).extractLsb' (8 * m.val) 8).toFin]) ∧
        t.phase = 9#4 ∧ s.KeepsInputs t ∧ s.KeepsFlags t ∧ t.sv = s.sv ∧ t.ct = s.ct ∧
          t.ha = s.ha ∧ t.work = s.work ∧ t.runN = s.runN ∧ s.KeepsResults t ∧ s.KeepsHost t

/-- R183: OUTPUT writes DIGESTk = LE32(Dg, 4k), sets DONE and ends the run; without Option 4 the digest
words are the hash-state words. -/
def Obligations.OutputWritesDigest : Prop :=
  ∀ s : State,
    ∃ t, exec .output s = .next t ∧
      (s.opts.getLsbD 3 = true → ∀ k : Fin 4, t.digest.get k = leWord s.dg.toList (4 * k.val)) ∧
        (s.opts.getLsbD 3 = false → t.digest = s.hs) ∧
          t.done = true ∧ t.busy = false ∧ t.phase = 0#4 ∧
            t.irq = (s.doneIe || s.err && s.errIe) ∧
              t.err = s.err ∧ t.errcode = s.errcode ∧ t.errinfo = s.errinfo ∧ t.opts = s.opts ∧
                t.hexin = s.hexin ∧ s.KeepsInputs t ∧ s.KeepsHidden t ∧ t.hs = s.hs ∧
                  t.blockCnt = s.blockCnt ∧ t.blockTotal = s.blockTotal ∧ s.KeepsHost t

/-- R184, R35: character 2i of the digest's rendering is the high nibble of byte i and character 2i+1 the
low one, in lowercase, and DIGEST_HEXk holds characters 4k to 4k+3, the first in bits 7:0. -/
def Obligations.DigestHexIsLowercaseRendering : Prop :=
  ∀ (q : Quad) (k m : Fin 4) (n : Fin 2),
    let x := (q.get k).extractLsb' (8 * m.val + 4 * (1 - n.val)) 4
    ((digestHexWord q ⟨2 * k.val + m.val / 2, by omega⟩).extractLsb' (8 * (2 * (m.val % 2) + n.val)) 8).toNat =
      if x.toNat < 10 then 0x30 + x.toNat else 0x61 + x.toNat - 10

/-! ### The host's bus

Each transaction here is one that the port answers (`BusTurn`): the reset input is released. What happens
while it is asserted is AssertedResetHoldsEngine (R245). -/

/-- R20: the words that reads of the named registers return, each answered OKAY, and no state of the
engine changes (R71). HSTATE is read here while BUSY = 0 (R33). -/
def Obligations.RegisterReadsReturnState : Prop :=
  ∀ (s : State) (rest : List HostOp) (off v : Word),
    s.BusTurn (.read .w32 off) rest →
      ((off = 0x000#32 ∧ v = 0#32) ∨ (off = 0x004#32 ∧ v = s.statusWord) ∨
        (off = 0x008#32 ∧ v = s.msgLen) ∨ (off = 0x00C#32 ∧ v = s.irqEnWord) ∨
          (off = 0x010#32 ∧ v = s.errinfo) ∨
            (off = 0x014#32 ∧ v = BitVec.ofNat 32 s.cfg.msgBufBytes) ∨
              (off = 0x018#32 ∧ v = s.blockCnt) ∨ (off = 0x01C#32 ∧ v = s.blockTotal) ∨
                (∃ k : Fin 4, s.busy = false ∧ off.toNat = 0x020 + 4 * k.val ∧ v = s.hs.get k) ∨
                  (∃ k : Fin 4, off.toNat = 0x030 + 4 * k.val ∧ v = s.digest.get k) ∨
                    (∃ k : Fin 8, off.toNat = 0x040 + 4 * k.val ∧ v = digestHexWord s.digest k)) →
        ∃ t, step s = .next t ∧ t.answer = some (.okayData v) ∧ t.pending = rest ∧
          s.KeepsInputs t ∧ s.KeepsFlags t ∧ s.KeepsHidden t ∧ s.KeepsResults t ∧ t.phase = s.phase

/-- R33: a read of HSTATE while BUSY = 1 completes with some value and changes no state of the engine. The
value is free (notes/assumptions/4.md), so nothing is said about it. -/
def Obligations.HstateReadWhileBusyCompletes : Prop :=
  ∀ (s : State) (rest : List HostOp) (off : Word) (k : Fin 4), s.BusTurn (.read .w32 off) rest →
    s.busy = true → off.toNat = 0x020 + 4 * k.val →
      ∃ t v, step s = .next t ∧ t.answer = some (.okayData v) ∧ s.KeepsInputs t ∧ s.KeepsFlags t ∧
        s.KeepsHidden t ∧ s.KeepsResults t ∧ t.phase = s.phase

/-- R22: where the STATUS fields stand, and that bits 3 and 31:17 read 0. -/
def Obligations.StatusWordFields : Prop :=
  ∀ s : State,
    s.statusWord.getLsbD 0 = s.busy ∧ s.statusWord.getLsbD 1 = s.done ∧
      s.statusWord.getLsbD 2 = s.err ∧ s.statusWord.getLsbD 3 = false ∧
        s.statusWord.extractLsb' 4 4 = s.errcode ∧ s.statusWord.extractLsb' 8 4 = s.phase ∧
          s.statusWord.extractLsb' 12 4 = s.opts ∧ s.statusWord.getLsbD 16 = s.hexin ∧
            s.statusWord.extractLsb' 17 15 = 0#15

/-- R23: a write of v to STATUS does its two independent things and changes nothing else, in every state. -/
def Obligations.StatusWriteOneToClear : Prop :=
  ∀ (s : State) (rest : List HostOp) (v : Word), s.BusTurn (.write .w32 0x004#32 v) rest →
    ∃ t, step s = .next t ∧ t.answer = some .okay ∧
      t.done = (s.done && !v.getLsbD 1) ∧
        (v.getLsbD 2 = true → t.err = false ∧ t.errcode = 0#4 ∧ t.errinfo = 0#32) ∧
          (v.getLsbD 2 = false → t.err = s.err ∧ t.errcode = s.errcode ∧ t.errinfo = s.errinfo) ∧
            t.busy = s.busy ∧ t.phase = s.phase ∧ t.opts = s.opts ∧ t.hexin = s.hexin ∧
              s.KeepsInputs t ∧ s.KeepsHidden t ∧ s.KeepsResults t

/-- R28, R233, R234: a write to IRQ_EN sets its two fields, in every state, and the interrupt line follows
in that event. -/
def Obligations.IrqEnableWriteMovesLine : Prop :=
  ∀ (s : State) (rest : List HostOp) (v : Word), s.BusTurn (.write .w32 0x00C#32 v) rest →
    ∃ t, step s = .next t ∧ t.irqEnWord = v &&& 3#32 ∧
      t.irq = (s.done && v.getLsbD 0 || s.err && v.getLsbD 1) ∧
        t.msgLen = s.msgLen ∧ (∀ a, t.msgbuf.read a = s.msgbuf.read a) ∧ t.cfg = s.cfg ∧ t.rst = s.rst ∧
          s.KeepsFlags t ∧ s.KeepsHidden t ∧ s.KeepsResults t ∧ t.phase = s.phase

/-- R64, R65: a read of MSGBUF word k returns bytes 4k to 4k+3, the first in bits 7:0, in every state, and
changes no state of the engine. -/
def Obligations.MsgbufReadReturnsWord : Prop :=
  ∀ (s : State) (rest : List HostOp) (off : Word) (k : Nat), s.BusTurn (.read .w32 off) rest →
    off.toNat = 0x1000 + 4 * k → 4 * k < s.cfg.msgBufBytes →
      ∃ t v, step s = .next t ∧ t.answer = some (.okayData v) ∧
        (∀ m : Fin 4, v.extractLsb' (8 * m.val) 8 = s.msgbuf.read (4 * k + m.val)) ∧
          t.pending = rest ∧ s.KeepsInputs t ∧ s.KeepsFlags t ∧ s.KeepsHidden t ∧ s.KeepsResults t ∧
            t.phase = s.phase ∧ t.irq = s.irq

/-- R66, R64, R65: while BUSY = 0 a write of v to MSGBUF word k stores its bytes, least significant first,
and leaves every other byte; the next read of the word returns v. -/
def Obligations.MsgbufWriteThenRead : Prop :=
  ∀ (s : State) (rest : List HostOp) (off v : Word) (k : Nat),
    s.BusTurn (.write .w32 off v) rest → s.busy = false → off.toNat = 0x1000 + 4 * k →
      4 * k < s.cfg.msgBufBytes →
        ∃ t, step s = .next t ∧
          (∀ m : Fin 4, t.msgbuf.read (4 * k + m.val) = v.extractLsb' (8 * m.val) 8) ∧
            (∀ a, a < 4 * k ∨ 4 * k + 4 ≤ a → t.msgbuf.read a = s.msgbuf.read a) ∧
              (s.msgbuf.wf → t.msgbuf.wf) ∧
                t.msgLen = s.msgLen ∧ t.doneIe = s.doneIe ∧ t.errIe = s.errIe ∧ t.cfg = s.cfg ∧ t.rst = s.rst ∧
                  s.KeepsFlags t ∧ s.KeepsHidden t ∧ s.KeepsResults t ∧ t.phase = s.phase ∧
                    ∀ u rest', u.msgbuf = t.msgbuf → u.cfg = t.cfg →
                      u.BusTurn (.read .w32 off) rest' →
                        ∃ w, step u = .next w ∧ w.answer = some (.okayData v)

/-- R68, R227: while BUSY = 1 a write to MSG_LEN or MSGBUF is dropped and raises BUSY_WRITE with its
offset, and the run goes on. -/
def Obligations.BusyWriteIsDropped : Prop :=
  ∀ (s : State) (rest : List HostOp) (off v : Word),
    s.BusTurn (.write .w32 off v) rest → s.busy = true → off.toNat % 4 = 0 →
      (off.toNat = 0x008 ∨ (0x1000 ≤ off.toNat ∧ off.toNat < 0x1000 + s.cfg.msgBufBytes)) →
        ∃ t, step s = .next t ∧ t.err = true ∧ t.errcode = 5#4 ∧ t.errinfo = off ∧
          t.busy = true ∧ t.phase = s.phase ∧ t.done = s.done ∧ t.opts = s.opts ∧
            t.hexin = s.hexin ∧ s.KeepsInputs t ∧ s.KeepsHidden t ∧ s.KeepsResults t

/-- R27: while BUSY = 0 MSG_LEN stores every 32-bit value exactly as written. -/
def Obligations.MsgLenStoresEveryValue : Prop :=
  ∀ (s : State) (rest : List HostOp) (v : Word),
    s.BusTurn (.write .w32 0x008#32 v) rest → s.busy = false →
      ∃ t, step s = .next t ∧ t.msgLen = v ∧ t.doneIe = s.doneIe ∧ t.errIe = s.errIe ∧
        (∀ a, t.msgbuf.read a = s.msgbuf.read a) ∧ t.cfg = s.cfg ∧ t.rst = s.rst ∧ s.KeepsFlags t ∧
          s.KeepsHidden t ∧ s.KeepsResults t ∧ t.phase = s.phase

/-- R63, R228: a transaction within the window that is narrower than 32 bits or misaligned is answered
ERROR, a read with some data, and changes no state of the engine. -/
def Obligations.UnadmittedTransactionHasNoEffect : Prop :=
  ∀ (s : State) (rest : List HostOp) (width : Width) (off v : Word) (op : HostOp),
    (op = .write width off v ∨ op = .read width off) → s.BusTurn op rest →
      off.toNat < 2 ^ s.cfg.addrBits → (width ≠ .w32 ∨ off.toNat % 4 ≠ 0) →
        ∃ t, step s = .next t ∧ (op = .write width off v → t.answer = some .error) ∧
          (op = .read width off → ∃ d, t.answer = some (.errorData d)) ∧
            s.KeepsInputs t ∧ s.KeepsFlags t ∧ s.KeepsHidden t ∧ s.KeepsResults t ∧
              t.phase = s.phase ∧ t.irq = s.irq

/-- R36, R20, R71: an aligned 32-bit write to a reserved offset or to a read-only register is ignored and
raises no error, in every state; a read of a reserved offset returns 0 and has no side effect. -/
def Obligations.ReservedAndReadOnlyOffsets : Prop :=
  ∀ (s : State) (rest : List HostOp) (off v : Word), off.toNat % 4 = 0 →
    off.toNat < 2 ^ s.cfg.addrBits →
      ((s.BusTurn (.write .w32 off v) rest →
        (0x010 ≤ off.toNat ∧ off.toNat < 0x1000 ∨ 0x1000 + s.cfg.msgBufBytes ≤ off.toNat) →
          ∃ t, step s = .next t ∧ t.answer = some .okay ∧ s.KeepsInputs t ∧ s.KeepsFlags t ∧
            s.KeepsHidden t ∧ s.KeepsResults t ∧ t.phase = s.phase) ∧
        (s.BusTurn (.read .w32 off) rest →
          (0x060 ≤ off.toNat ∧ off.toNat < 0x1000 ∨ 0x1000 + s.cfg.msgBufBytes ≤ off.toNat) →
            ∃ t, step s = .next t ∧ t.answer = some (.okayData 0#32) ∧ s.KeepsInputs t ∧
              s.KeepsFlags t ∧ s.KeepsHidden t ∧ s.KeepsResults t ∧ t.phase = s.phase))

/-! ### The machine -/

/-- A step runs the operation its code decodes to: the command word of a host's CMD write, the phase
code of the pending step, or the round index inside a COMPRESS step (R190, R196, R124). A CMD write of
any word, legal or not, is handled by `writeCmd`, and a word that does not decode raises ILLEGAL with
the word, whether or not BUSY = 1 (R190, R226, R244). Around it the step takes the event off the host's
queue and answers OKAY, draws the next gap, or moves the round index on. The gap that `hostGoes` and
`sequencerGoes` carry is the model's device for the free interleaving (DESIGN CHOICE,
notes/assumptions/2.md), and that one step of the machine can be one round is the model's own too
(DESIGN CHOICE, notes/assumptions/10.md). -/
def Obligations.StepRunsDecodedOperation : Prop :=
  ∀ (s : State) (i : Instr),
    (∀ w rest, s.BusTurn (.write .w32 0x000#32 w) rest →
      step s = writeCmd w { s.hostGoes rest with answer := some .okay } ∧
        (decode (.cmd w) = .ok i → step s = exec i { s.hostGoes rest with answer := some .okay }) ∧
          ((decode (.cmd w)).isOk = false →
            step s = .next ({ s.hostGoes rest with answer := some .okay }.raise .illegal w))) ∧
      (s.SequencerTurn → decode (.phase s.phase) = .ok i → step s = exec i s.sequencerGoes) ∧
        ∀ j, s.inner = .round j → decode (.round j) = .ok i → step s = exec i (s.roundGoes j)

/-- R50: the visible state right after reset, and the irq output. -/
def Obligations.ResetLeavesTheSpecsValues : Prop :=
  State.reset.statusWord = 0#32 ∧ State.reset.msgLen = 0#32 ∧ State.reset.irqEnWord = 0#32 ∧
    State.reset.errinfo = 0#32 ∧ State.reset.blockCnt = 0#32 ∧ State.reset.blockTotal = 0#32 ∧
      State.reset.hs = ⟨0x67452301#32, 0xEFCDAB89#32, 0x98BADCFE#32, 0x10325476#32⟩ ∧
        (∀ k, State.reset.digest.get k = 0#32) ∧
          (∀ k, digestHexWord State.reset.digest k = 0x30303030#32) ∧ State.reset.irq = false

/-- R245, R246, R249, R69: asserting the reset input in any state leaves every register of R50 at its reset
value, and no byte of MSGBUF is then one the host has written. -/
def Obligations.HardResetInAnyState : Prop :=
  ∀ (s : State) (rest : List HostOp), s.HostTurn (.rst true) rest →
    ∃ t, step s = .next t ∧ t.rst = true ∧ t.AtReset ∧ (∀ a, t.msgbuf.written a = none) ∧
      t.inner = .outside ∧ t.cfg = s.cfg

/-- R245: while the reset input is asserted a bus transaction is not answered and changes no state of the
engine, at any offset and of any width, no step of the sequencer happens, and with no host event pending
the machine stays as it is; releasing the input changes nothing else, so what comes next sees the reset
state. `inner = .outside` rules out only states that no run reaches: in a state that meets State.Inv no
COMPRESS step is under way while the input is asserted. That the unanswered transaction is lost is the
model's choice (notes/assumptions/12.md). -/
def Obligations.AssertedResetHoldsEngine : Prop :=
  (∀ (s : State) (op : HostOp) (rest : List HostOp), s.HostTurn op rest → s.rst = true →
    (∀ level, op ≠ .rst level) →
      ∃ t, step s = .next t ∧ t.answer = none ∧ t.pending = rest ∧ s.KeepsInputs t ∧
        s.KeepsFlags t ∧ s.KeepsHidden t ∧ s.KeepsResults t ∧ t.phase = s.phase) ∧
    (∀ s : State, s.rst = true → s.turn ≠ .sequencer) ∧
      (∀ s : State, s.inner = .outside → s.rst = true → s.pending = [] → step s = .next s) ∧
        ∀ (s : State) (rest : List HostOp), s.HostTurn (.rst false) rest →
          ∃ t, step s = .next t ∧ t.rst = false ∧ t.cfg = s.cfg ∧ t.msgLen = s.msgLen ∧
            t.doneIe = s.doneIe ∧ t.errIe = s.errIe ∧ t.msgbuf = s.msgbuf ∧ s.KeepsFlags t ∧
              s.KeepsHidden t ∧ s.KeepsResults t ∧ t.phase = s.phase

/-- The reset state meets the invariant. -/
def Obligations.ResetMeetsInvariant : Prop := State.reset.Inv

/-- Every step keeps the invariant (R24, R29, R41, R86, R198, R245 and the others its fields name). -/
def Obligations.StepKeepsInvariant : Prop :=
  ∀ s t : State, s.Inv → step s = .next t → t.Inv

/-- From a state that meets the invariant no step is refused, and every internal operation has its effect
(R79, R89, R232). The one stop is the model's choice: the spec has no offset at or above 2^ADDR_BITS,
and a host event at one faults (DESIGN CHOICE, notes/assumptions/13.md). -/
def Obligations.OnlyOutsideWindowStops : Prop :=
  ∀ s : State, s.Inv →
    (∃ t, step s = .next t) ∨
      ∃ off rest, step s = .fault (.outsideWindow off) ∧ 2 ^ s.cfg.addrBits ≤ off.toNat ∧
        ((∃ w v, s.BusTurn (.write w off v) rest) ∨ (∃ w, s.BusTurn (.read w off) rest) ∨
          ∃ m v, s.BusTurn (.wait off m v) rest)

/-- R200, R204: from the CHECK of a run whose input passes, with no host event pending, exactly
steps(s, BT) steps end the run, with the digest and the terminal state that the function HASH of the
message and the selector gives, whatever an earlier run left (R201). -/
def Obligations.RunComputesHash : Prop :=
  ∀ s : State, s.inner = .outside → s.rst = false → s.pending = [] → s.busy = true → s.phase = 1#4 → s.CheckPasses →
    ∃ t, core.run (runSteps s.opts ((hashStream s.cfg s.opts s.message).length / 64)) s = .next t ∧
      quadBytes t.digest = hashBytes s.cfg s.opts s.message ∧
        t.hs = hashFinal s.cfg s.opts s.message ∧
          t.busy = false ∧ t.phase = 0#4 ∧ t.done = true ∧ t.err = s.err ∧ t.errcode = s.errcode ∧
            t.errinfo = s.errinfo ∧ t.opts = s.opts ∧ t.hexin = s.hexin ∧
              t.blockCnt = t.blockTotal ∧
                t.blockTotal.toNat = (hashStream s.cfg s.opts s.message).length / 64 ∧
                  s.KeepsInputs t

/-- R19, R201: two runs on the same message bytes and selector, from any two states, end with the same
digest and terminal state: nothing of an earlier run shows. -/
def Obligations.RunIgnoresHistory : Prop :=
  ∀ (s u t w : State) (n : Nat), s.inner = .outside → u.inner = .outside → s.rst = false → u.rst = false → s.pending = [] →
    u.pending = [] → s.busy = true → u.busy = true → s.phase = 1#4 → u.phase = 1#4 →
      u.cfg = s.cfg → u.opts = s.opts → u.hexin = s.hexin → u.msgLen = s.msgLen →
        (∀ k < s.msgLen.toNat, u.msgbuf.read k = s.msgbuf.read k) → s.CheckPasses →
          n = runSteps s.opts ((hashStream s.cfg s.opts s.message).length / 64) →
            core.run n s = .next t → core.run n u = .next w → w.digest = t.digest ∧ w.hs = t.hs

/-- R195: two states that differ in the input mode, one holding a hex string that passes CHECK, in any
letter case, the other the bytes it stands for, have the same message, so RunComputesHash gives them
the same digest. -/
def Obligations.HexModeLoadsTheRawMessage : Prop :=
  ∀ s u : State, s.hexin = true → u.hexin = false → s.CheckPasses →
    s.msgLen.toNat = 2 * u.msgLen.toNat →
      (∀ k < u.msgLen.toNat, ∀ hi lo, hexval (s.msgbuf.read (2 * k)) = some hi →
        hexval (s.msgbuf.read (2 * k + 1)) = some lo →
          (u.msgbuf.read k).toNat = 16 * hi.toNat + lo.toNat) →
        s.message = u.message

/-- R185, through R200: Option 4 only substitutes the bytes of the digest, and leaves the terminal hash
state, in the function HASH and in two completed runs on the same inputs that differ in Option 4 alone,
the one with it a step longer. -/
def Obligations.FinalOptionIsIndependent : Prop :=
  (∀ (c : Config) (o : BitVec 4) (M : List Byte), o.getLsbD 3 = false →
    hashBytes c (o ||| 8#4) M = (hashBytes c o M).map (fun x => c.finalSbox[x.toFin]) ∧
      hashFinal c (o ||| 8#4) M = hashFinal c o M) ∧
    ∀ (s t w : State) (n : Nat), s.inner = .outside → s.rst = false → s.pending = [] →
      s.busy = true → s.phase = 1#4 → s.CheckPasses → s.opts.getLsbD 3 = false →
        n = runSteps s.opts ((hashStream s.cfg s.opts s.message).length / 64) →
          core.run n s = .next t → core.run (n + 1) { s with opts := s.opts ||| 8#4 } = .next w →
            quadBytes w.digest = (quadBytes t.digest).map (fun x => s.cfg.finalSbox[x.toFin]) ∧
              w.hs = t.hs

/-- R68, R206: while BUSY = 1 no host event but CLEAR and reset changes what the sequencer works on. -/
def Obligations.HostCannotDisturbRun : Prop :=
  ∀ (s t : State) (op : HostOp) (rest : List HostOp),
    s.HostTurn op rest → s.busy = true → step s = .next t → op ≠ .rst true →
      op ≠ .write .w32 0x000#32 0x00000002#32 →
        t.busy = true ∧ t.phase = s.phase ∧ t.opts = s.opts ∧ t.hexin = s.hexin ∧
          t.msgLen = s.msgLen ∧ (∀ a, t.msgbuf.read a = s.msgbuf.read a) ∧ t.cfg = s.cfg ∧
            s.KeepsHidden t ∧ s.KeepsResults t ∧ t.inner = s.inner

/-- R206: host events cannot hold the sequencer off. While a run goes on, the step is the sequencer's when
no host event is pending, and when the count of those that may still come first is 0; and each host
event that leaves the run going lowers that finite count by 1. The count, `gap`, is the model's
device for the free interleaving (DESIGN CHOICE, notes/assumptions/2.md). -/
def Obligations.SequencerIsNeverHeldOff : Prop :=
  ∀ s : State, s.inner = .outside → s.busy = true → s.rst = false →
    (s.pending = [] → s.turn = .sequencer ∧ step s = s.sequencerStep) ∧
      (s.gap = 0 → s.turn = .sequencer ∧ step s = s.sequencerStep) ∧
        ∀ t op rest, s.HostTurn op rest → step s = .next t → t.busy = true → t.gap + 1 = s.gap

/-- R9, R261: no event changes the configuration. -/
def Obligations.ConfigurationNeverChanges : Prop :=
  ∀ s t : State, step s = .next t → t.cfg = s.cfg

/-- R67, R37: the sequencer writes neither MSGBUF nor MSG_LEN nor IRQ_EN, and no operation of the opcode
table changes a byte of MSGBUF. -/
def Obligations.OperationsLeaveInputs : Prop :=
  ∀ (i : Instr) (s t : State), exec i s = .next t → s.KeepsInputs t

/-- R34: DIGEST changes only by the OUTPUT step, by CLEAR and by reset. -/
def Obligations.DigestWrittenByOutputOnly : Prop :=
  ∀ s t : State, step s = .next t → t.digest ≠ s.digest →
    (s.SequencerTurn ∧ s.phase = 9#4) ∨
      (∃ rest, s.BusTurn (.write .w32 0x000#32 0x00000002#32) rest) ∨
        ∃ rest, s.HostTurn (.rst true) rest

/-- R24: BUSY becomes 1 only through an accepted START. -/
def Obligations.BusyRisesByStartOnly : Prop :=
  ∀ s t : State, step s = .next t → s.busy = false → t.busy = true →
    ∃ w rest, s.BusTurn (.write .w32 0x000#32 w) rest ∧ w &&& 0xFFFFE0FF#32 = 0x00000001#32

/-- R25, R221: DONE is set by the OUTPUT step only, and ERR only by CHECK, a write to CMD, or a write to
MSG_LEN or MSGBUF while BUSY = 1. -/
def Obligations.WhoSetsDoneAndErr : Prop :=
  ∀ s t : State, step s = .next t →
    (s.done = false → t.done = true → s.SequencerTurn ∧ s.phase = 9#4) ∧
      (s.err = false → t.err = true →
        (s.SequencerTurn ∧ s.phase = 1#4) ∨
          ∃ off v rest, s.BusTurn (.write .w32 off v) rest ∧
            (off = 0x000#32 ∨
              s.busy = true ∧ (off = 0x008#32 ∨
                0x1000 ≤ off.toNat ∧ off.toNat < 0x1000 + s.cfg.msgBufBytes)))

/-- R13: the rounding of every ratio, and with it the product, the sum and the difference of all finite
values and the decimal literals, is one rounding to nearest, ties to even, of the exact result; an integer
up to 2^53 is exact; and floor is exact. R13 does not speak of a result past the largest finite value: that it
is an infinity, and of which sign, is the model's (PRESUMED, IEEE 754's usual answer,
notes/assumptions/15.md). -/
def Obligations.RoundingIsToNearest : Prop :=
  (∀ (neg : Bool) (num den : Nat), 0 < den →
    NearestEven (if neg then -(num : Int) else num) den (f64Round neg num den)) ∧
    (∀ x y : F64, f64Finite x = true → f64Finite y = true →
      NearestEven (f64Signed x * f64Signed y) (2 ^ 1074) (fmul x y) ∧
        NearestEven (f64Signed x + f64Signed y) 1 (fadd x y) ∧
          NearestEven (f64Signed x - f64Signed y) 1 (fsub x y)) ∧
      (∀ digits places : Nat, NearestEven (digits * 2 ^ 1074) (10 ^ places) (f64Dec digits places)) ∧
        (∀ n ≤ 2 ^ 53, f64Signed (f64OfNat n) = n * 2 ^ 1074) ∧
          ∀ x, f64Finite x = true →
            f64Floor x * 2 ^ 1074 ≤ f64Signed x ∧ f64Signed x < (f64Floor x + 1) * 2 ^ 1074
end

