-- ==== Sys2Proof/Laws/State.lean ====
section
/-! SUPPORT. One lemma for each field of State under each named update, so that no proof unfolds a
record update. -/

namespace Sys2Proof.Machine

/-! ### `State.raise` -/
@[simp] theorem State.raise_cfg (s : State) (e : ErrorKind) (info : Word) : (s.raise e info).cfg = s.cfg := rfl
@[simp] theorem State.raise_busy (s : State) (e : ErrorKind) (info : Word) : (s.raise e info).busy = (if e.ending then false else s.busy) := rfl
@[simp] theorem State.raise_done (s : State) (e : ErrorKind) (info : Word) : (s.raise e info).done = s.done := rfl
@[simp] theorem State.raise_err (s : State) (e : ErrorKind) (info : Word) : (s.raise e info).err = true := rfl
@[simp] theorem State.raise_errcode (s : State) (e : ErrorKind) (info : Word) : (s.raise e info).errcode = e.code := rfl
@[simp] theorem State.raise_phase (s : State) (e : ErrorKind) (info : Word) : (s.raise e info).phase = (if e.ending then 0#4 else s.phase) := rfl
@[simp] theorem State.raise_opts (s : State) (e : ErrorKind) (info : Word) : (s.raise e info).opts = s.opts := rfl
@[simp] theorem State.raise_hexin (s : State) (e : ErrorKind) (info : Word) : (s.raise e info).hexin = s.hexin := rfl
@[simp] theorem State.raise_msgLen (s : State) (e : ErrorKind) (info : Word) : (s.raise e info).msgLen = s.msgLen := rfl
@[simp] theorem State.raise_doneIe (s : State) (e : ErrorKind) (info : Word) : (s.raise e info).doneIe = s.doneIe := rfl
@[simp] theorem State.raise_errIe (s : State) (e : ErrorKind) (info : Word) : (s.raise e info).errIe = s.errIe := rfl
@[simp] theorem State.raise_errinfo (s : State) (e : ErrorKind) (info : Word) : (s.raise e info).errinfo = info := rfl
@[simp] theorem State.raise_blockCnt (s : State) (e : ErrorKind) (info : Word) : (s.raise e info).blockCnt = s.blockCnt := rfl
@[simp] theorem State.raise_blockTotal (s : State) (e : ErrorKind) (info : Word) : (s.raise e info).blockTotal = s.blockTotal := rfl
@[simp] theorem State.raise_hs (s : State) (e : ErrorKind) (info : Word) : (s.raise e info).hs = s.hs := rfl
@[simp] theorem State.raise_digest (s : State) (e : ErrorKind) (info : Word) : (s.raise e info).digest = s.digest := rfl
@[simp] theorem State.raise_msgbuf (s : State) (e : ErrorKind) (info : Word) : (s.raise e info).msgbuf = s.msgbuf := rfl
@[simp] theorem State.raise_sv (s : State) (e : ErrorKind) (info : Word) : (s.raise e info).sv = s.sv := rfl
@[simp] theorem State.raise_ct (s : State) (e : ErrorKind) (info : Word) : (s.raise e info).ct = s.ct := rfl
@[simp] theorem State.raise_ha (s : State) (e : ErrorKind) (info : Word) : (s.raise e info).ha = s.ha := rfl
@[simp] theorem State.raise_work (s : State) (e : ErrorKind) (info : Word) : (s.raise e info).work = s.work := rfl
@[simp] theorem State.raise_runN (s : State) (e : ErrorKind) (info : Word) : (s.raise e info).runN = s.runN := rfl
@[simp] theorem State.raise_dg (s : State) (e : ErrorKind) (info : Word) : (s.raise e info).dg = s.dg := rfl
@[simp] theorem State.raise_rst (s : State) (e : ErrorKind) (info : Word) : (s.raise e info).rst = s.rst := rfl
@[simp] theorem State.raise_inner (s : State) (e : ErrorKind) (info : Word) : (s.raise e info).inner = s.inner := rfl
@[simp] theorem State.raise_pending (s : State) (e : ErrorKind) (info : Word) : (s.raise e info).pending = s.pending := rfl
@[simp] theorem State.raise_answer (s : State) (e : ErrorKind) (info : Word) : (s.raise e info).answer = s.answer := rfl
@[simp] theorem State.raise_gap (s : State) (e : ErrorKind) (info : Word) : (s.raise e info).gap = s.gap := rfl
@[simp] theorem State.raise_draws (s : State) (e : ErrorKind) (info : Word) : (s.raise e info).draws = s.draws := rfl

/-! ### `State.seqTo` -/
@[simp] theorem State.seqTo_cfg (s : State) (p : BitVec 4) (i : Word) : (s.seqTo p i).cfg = s.cfg := rfl
@[simp] theorem State.seqTo_busy (s : State) (p : BitVec 4) (i : Word) : (s.seqTo p i).busy = s.busy := rfl
@[simp] theorem State.seqTo_done (s : State) (p : BitVec 4) (i : Word) : (s.seqTo p i).done = s.done := rfl
@[simp] theorem State.seqTo_err (s : State) (p : BitVec 4) (i : Word) : (s.seqTo p i).err = s.err := rfl
@[simp] theorem State.seqTo_errcode (s : State) (p : BitVec 4) (i : Word) : (s.seqTo p i).errcode = s.errcode := rfl
@[simp] theorem State.seqTo_phase (s : State) (p : BitVec 4) (i : Word) : (s.seqTo p i).phase = p := rfl
@[simp] theorem State.seqTo_opts (s : State) (p : BitVec 4) (i : Word) : (s.seqTo p i).opts = s.opts := rfl
@[simp] theorem State.seqTo_hexin (s : State) (p : BitVec 4) (i : Word) : (s.seqTo p i).hexin = s.hexin := rfl
@[simp] theorem State.seqTo_msgLen (s : State) (p : BitVec 4) (i : Word) : (s.seqTo p i).msgLen = s.msgLen := rfl
@[simp] theorem State.seqTo_doneIe (s : State) (p : BitVec 4) (i : Word) : (s.seqTo p i).doneIe = s.doneIe := rfl
@[simp] theorem State.seqTo_errIe (s : State) (p : BitVec 4) (i : Word) : (s.seqTo p i).errIe = s.errIe := rfl
@[simp] theorem State.seqTo_errinfo (s : State) (p : BitVec 4) (i : Word) : (s.seqTo p i).errinfo = s.errinfo := rfl
@[simp] theorem State.seqTo_blockCnt (s : State) (p : BitVec 4) (i : Word) : (s.seqTo p i).blockCnt = i := rfl
@[simp] theorem State.seqTo_blockTotal (s : State) (p : BitVec 4) (i : Word) : (s.seqTo p i).blockTotal = s.blockTotal := rfl
@[simp] theorem State.seqTo_hs (s : State) (p : BitVec 4) (i : Word) : (s.seqTo p i).hs = s.hs := rfl
@[simp] theorem State.seqTo_digest (s : State) (p : BitVec 4) (i : Word) : (s.seqTo p i).digest = s.digest := rfl
@[simp] theorem State.seqTo_msgbuf (s : State) (p : BitVec 4) (i : Word) : (s.seqTo p i).msgbuf = s.msgbuf := rfl
@[simp] theorem State.seqTo_sv (s : State) (p : BitVec 4) (i : Word) : (s.seqTo p i).sv = s.sv := rfl
@[simp] theorem State.seqTo_ct (s : State) (p : BitVec 4) (i : Word) : (s.seqTo p i).ct = s.ct := rfl
@[simp] theorem State.seqTo_ha (s : State) (p : BitVec 4) (i : Word) : (s.seqTo p i).ha = s.ha := rfl
@[simp] theorem State.seqTo_work (s : State) (p : BitVec 4) (i : Word) : (s.seqTo p i).work = s.work := rfl
@[simp] theorem State.seqTo_runN (s : State) (p : BitVec 4) (i : Word) : (s.seqTo p i).runN = s.runN := rfl
@[simp] theorem State.seqTo_dg (s : State) (p : BitVec 4) (i : Word) : (s.seqTo p i).dg = s.dg := rfl
@[simp] theorem State.seqTo_rst (s : State) (p : BitVec 4) (i : Word) : (s.seqTo p i).rst = s.rst := rfl
@[simp] theorem State.seqTo_inner (s : State) (p : BitVec 4) (i : Word) : (s.seqTo p i).inner = s.inner := rfl
@[simp] theorem State.seqTo_pending (s : State) (p : BitVec 4) (i : Word) : (s.seqTo p i).pending = s.pending := rfl
@[simp] theorem State.seqTo_answer (s : State) (p : BitVec 4) (i : Word) : (s.seqTo p i).answer = s.answer := rfl
@[simp] theorem State.seqTo_gap (s : State) (p : BitVec 4) (i : Word) : (s.seqTo p i).gap = s.gap := rfl
@[simp] theorem State.seqTo_draws (s : State) (p : BitVec 4) (i : Word) : (s.seqTo p i).draws = s.draws := rfl
@[simp] theorem State.seqTo_seqPosition (s : State) (p : BitVec 4) (i : Word) : (s.seqTo p i).seqPosition = (p, i) := rfl

/-! ### `State.clearFlags` -/
@[simp] theorem State.clearFlags_cfg (s : State) (v : Word) : (s.clearFlags v).cfg = s.cfg := rfl
@[simp] theorem State.clearFlags_busy (s : State) (v : Word) : (s.clearFlags v).busy = s.busy := rfl
@[simp] theorem State.clearFlags_done (s : State) (v : Word) : (s.clearFlags v).done = (if v.getLsbD 1 then false else s.done) := rfl
@[simp] theorem State.clearFlags_err (s : State) (v : Word) : (s.clearFlags v).err = (if v.getLsbD 2 then false else s.err) := rfl
@[simp] theorem State.clearFlags_errcode (s : State) (v : Word) : (s.clearFlags v).errcode = (if v.getLsbD 2 then 0#4 else s.errcode) := rfl
@[simp] theorem State.clearFlags_phase (s : State) (v : Word) : (s.clearFlags v).phase = s.phase := rfl
@[simp] theorem State.clearFlags_opts (s : State) (v : Word) : (s.clearFlags v).opts = s.opts := rfl
@[simp] theorem State.clearFlags_hexin (s : State) (v : Word) : (s.clearFlags v).hexin = s.hexin := rfl
@[simp] theorem State.clearFlags_msgLen (s : State) (v : Word) : (s.clearFlags v).msgLen = s.msgLen := rfl
@[simp] theorem State.clearFlags_doneIe (s : State) (v : Word) : (s.clearFlags v).doneIe = s.doneIe := rfl
@[simp] theorem State.clearFlags_errIe (s : State) (v : Word) : (s.clearFlags v).errIe = s.errIe := rfl
@[simp] theorem State.clearFlags_errinfo (s : State) (v : Word) : (s.clearFlags v).errinfo = (if v.getLsbD 2 then 0#32 else s.errinfo) := rfl
@[simp] theorem State.clearFlags_blockCnt (s : State) (v : Word) : (s.clearFlags v).blockCnt = s.blockCnt := rfl
@[simp] theorem State.clearFlags_blockTotal (s : State) (v : Word) : (s.clearFlags v).blockTotal = s.blockTotal := rfl
@[simp] theorem State.clearFlags_hs (s : State) (v : Word) : (s.clearFlags v).hs = s.hs := rfl
@[simp] theorem State.clearFlags_digest (s : State) (v : Word) : (s.clearFlags v).digest = s.digest := rfl
@[simp] theorem State.clearFlags_msgbuf (s : State) (v : Word) : (s.clearFlags v).msgbuf = s.msgbuf := rfl
@[simp] theorem State.clearFlags_sv (s : State) (v : Word) : (s.clearFlags v).sv = s.sv := rfl
@[simp] theorem State.clearFlags_ct (s : State) (v : Word) : (s.clearFlags v).ct = s.ct := rfl
@[simp] theorem State.clearFlags_ha (s : State) (v : Word) : (s.clearFlags v).ha = s.ha := rfl
@[simp] theorem State.clearFlags_work (s : State) (v : Word) : (s.clearFlags v).work = s.work := rfl
@[simp] theorem State.clearFlags_runN (s : State) (v : Word) : (s.clearFlags v).runN = s.runN := rfl
@[simp] theorem State.clearFlags_dg (s : State) (v : Word) : (s.clearFlags v).dg = s.dg := rfl
@[simp] theorem State.clearFlags_rst (s : State) (v : Word) : (s.clearFlags v).rst = s.rst := rfl
@[simp] theorem State.clearFlags_inner (s : State) (v : Word) : (s.clearFlags v).inner = s.inner := rfl
@[simp] theorem State.clearFlags_pending (s : State) (v : Word) : (s.clearFlags v).pending = s.pending := rfl
@[simp] theorem State.clearFlags_answer (s : State) (v : Word) : (s.clearFlags v).answer = s.answer := rfl
@[simp] theorem State.clearFlags_gap (s : State) (v : Word) : (s.clearFlags v).gap = s.gap := rfl
@[simp] theorem State.clearFlags_draws (s : State) (v : Word) : (s.clearFlags v).draws = s.draws := rfl

/-! ### `State.startRun` -/
@[simp] theorem State.startRun_cfg (s : State) (o : BitVec 4) (x : Bool) : (s.startRun o x).cfg = s.cfg := rfl
@[simp] theorem State.startRun_busy (s : State) (o : BitVec 4) (x : Bool) : (s.startRun o x).busy = true := rfl
@[simp] theorem State.startRun_done (s : State) (o : BitVec 4) (x : Bool) : (s.startRun o x).done = false := rfl
@[simp] theorem State.startRun_err (s : State) (o : BitVec 4) (x : Bool) : (s.startRun o x).err = false := rfl
@[simp] theorem State.startRun_errcode (s : State) (o : BitVec 4) (x : Bool) : (s.startRun o x).errcode = 0#4 := rfl
@[simp] theorem State.startRun_phase (s : State) (o : BitVec 4) (x : Bool) : (s.startRun o x).phase = 1#4 := rfl
@[simp] theorem State.startRun_opts (s : State) (o : BitVec 4) (x : Bool) : (s.startRun o x).opts = o := rfl
@[simp] theorem State.startRun_hexin (s : State) (o : BitVec 4) (x : Bool) : (s.startRun o x).hexin = x := rfl
@[simp] theorem State.startRun_msgLen (s : State) (o : BitVec 4) (x : Bool) : (s.startRun o x).msgLen = s.msgLen := rfl
@[simp] theorem State.startRun_doneIe (s : State) (o : BitVec 4) (x : Bool) : (s.startRun o x).doneIe = s.doneIe := rfl
@[simp] theorem State.startRun_errIe (s : State) (o : BitVec 4) (x : Bool) : (s.startRun o x).errIe = s.errIe := rfl
@[simp] theorem State.startRun_errinfo (s : State) (o : BitVec 4) (x : Bool) : (s.startRun o x).errinfo = 0#32 := rfl
@[simp] theorem State.startRun_blockCnt (s : State) (o : BitVec 4) (x : Bool) : (s.startRun o x).blockCnt = s.blockCnt := rfl
@[simp] theorem State.startRun_blockTotal (s : State) (o : BitVec 4) (x : Bool) : (s.startRun o x).blockTotal = s.blockTotal := rfl
@[simp] theorem State.startRun_hs (s : State) (o : BitVec 4) (x : Bool) : (s.startRun o x).hs = s.hs := rfl
@[simp] theorem State.startRun_digest (s : State) (o : BitVec 4) (x : Bool) : (s.startRun o x).digest = s.digest := rfl
@[simp] theorem State.startRun_msgbuf (s : State) (o : BitVec 4) (x : Bool) : (s.startRun o x).msgbuf = s.msgbuf := rfl
@[simp] theorem State.startRun_sv (s : State) (o : BitVec 4) (x : Bool) : (s.startRun o x).sv = s.sv := rfl
@[simp] theorem State.startRun_ct (s : State) (o : BitVec 4) (x : Bool) : (s.startRun o x).ct = s.ct := rfl
@[simp] theorem State.startRun_ha (s : State) (o : BitVec 4) (x : Bool) : (s.startRun o x).ha = s.ha := rfl
@[simp] theorem State.startRun_work (s : State) (o : BitVec 4) (x : Bool) : (s.startRun o x).work = s.work := rfl
@[simp] theorem State.startRun_runN (s : State) (o : BitVec 4) (x : Bool) : (s.startRun o x).runN = s.runN := rfl
@[simp] theorem State.startRun_dg (s : State) (o : BitVec 4) (x : Bool) : (s.startRun o x).dg = s.dg := rfl
@[simp] theorem State.startRun_rst (s : State) (o : BitVec 4) (x : Bool) : (s.startRun o x).rst = s.rst := rfl
@[simp] theorem State.startRun_inner (s : State) (o : BitVec 4) (x : Bool) : (s.startRun o x).inner = s.inner := rfl
@[simp] theorem State.startRun_pending (s : State) (o : BitVec 4) (x : Bool) : (s.startRun o x).pending = s.pending := rfl
@[simp] theorem State.startRun_answer (s : State) (o : BitVec 4) (x : Bool) : (s.startRun o x).answer = s.answer := rfl
@[simp] theorem State.startRun_gap (s : State) (o : BitVec 4) (x : Bool) : (s.startRun o x).gap = s.gap := rfl
@[simp] theorem State.startRun_draws (s : State) (o : BitVec 4) (x : Bool) : (s.startRun o x).draws = s.draws := rfl

/-! ### `State.softReset` -/
@[simp] theorem State.softReset_cfg (s : State) : (s.softReset).cfg = s.cfg := rfl
@[simp] theorem State.softReset_busy (s : State) : (s.softReset).busy = false := rfl
@[simp] theorem State.softReset_done (s : State) : (s.softReset).done = false := rfl
@[simp] theorem State.softReset_err (s : State) : (s.softReset).err = false := rfl
@[simp] theorem State.softReset_errcode (s : State) : (s.softReset).errcode = 0#4 := rfl
@[simp] theorem State.softReset_phase (s : State) : (s.softReset).phase = 0#4 := rfl
@[simp] theorem State.softReset_opts (s : State) : (s.softReset).opts = 0#4 := rfl
@[simp] theorem State.softReset_hexin (s : State) : (s.softReset).hexin = false := rfl
@[simp] theorem State.softReset_msgLen (s : State) : (s.softReset).msgLen = s.msgLen := rfl
@[simp] theorem State.softReset_doneIe (s : State) : (s.softReset).doneIe = s.doneIe := rfl
@[simp] theorem State.softReset_errIe (s : State) : (s.softReset).errIe = s.errIe := rfl
@[simp] theorem State.softReset_errinfo (s : State) : (s.softReset).errinfo = 0#32 := rfl
@[simp] theorem State.softReset_blockCnt (s : State) : (s.softReset).blockCnt = 0#32 := rfl
@[simp] theorem State.softReset_blockTotal (s : State) : (s.softReset).blockTotal = 0#32 := rfl
@[simp] theorem State.softReset_hs (s : State) : (s.softReset).hs = iv := rfl
@[simp] theorem State.softReset_digest (s : State) : (s.softReset).digest = ⟨0#32, 0#32, 0#32, 0#32⟩ := rfl
@[simp] theorem State.softReset_msgbuf (s : State) : (s.softReset).msgbuf = s.msgbuf := rfl
@[simp] theorem State.softReset_sv (s : State) : (s.softReset).sv = ⟨0#32, 0#32, 0#32, 0#32⟩ := rfl
@[simp] theorem State.softReset_ct (s : State) : (s.softReset).ct = Vector.replicate 256 0#8 := rfl
@[simp] theorem State.softReset_ha (s : State) : (s.softReset).ha = Vector.replicate 32 0#4 := rfl
@[simp] theorem State.softReset_work (s : State) : (s.softReset).work = [] := rfl
@[simp] theorem State.softReset_runN (s : State) : (s.softReset).runN = 0#32 := rfl
@[simp] theorem State.softReset_dg (s : State) : (s.softReset).dg = Vector.replicate 16 0#8 := rfl
@[simp] theorem State.softReset_rst (s : State) : (s.softReset).rst = s.rst := rfl
@[simp] theorem State.softReset_inner (s : State) : (s.softReset).inner = .outside := rfl
@[simp] theorem State.softReset_pending (s : State) : (s.softReset).pending = s.pending := rfl
@[simp] theorem State.softReset_answer (s : State) : (s.softReset).answer = s.answer := rfl
@[simp] theorem State.softReset_gap (s : State) : (s.softReset).gap = s.gap := rfl
@[simp] theorem State.softReset_draws (s : State) : (s.softReset).draws = s.draws := rfl

/-! ### `State.hardReset` -/
@[simp] theorem State.hardReset_cfg (s : State) : (s.hardReset).cfg = s.cfg := rfl
@[simp] theorem State.hardReset_busy (s : State) : (s.hardReset).busy = false := rfl
@[simp] theorem State.hardReset_done (s : State) : (s.hardReset).done = false := rfl
@[simp] theorem State.hardReset_err (s : State) : (s.hardReset).err = false := rfl
@[simp] theorem State.hardReset_errcode (s : State) : (s.hardReset).errcode = 0#4 := rfl
@[simp] theorem State.hardReset_phase (s : State) : (s.hardReset).phase = 0#4 := rfl
@[simp] theorem State.hardReset_opts (s : State) : (s.hardReset).opts = 0#4 := rfl
@[simp] theorem State.hardReset_hexin (s : State) : (s.hardReset).hexin = false := rfl
@[simp] theorem State.hardReset_msgLen (s : State) : (s.hardReset).msgLen = 0#32 := rfl
@[simp] theorem State.hardReset_doneIe (s : State) : (s.hardReset).doneIe = false := rfl
@[simp] theorem State.hardReset_errIe (s : State) : (s.hardReset).errIe = false := rfl
@[simp] theorem State.hardReset_errinfo (s : State) : (s.hardReset).errinfo = 0#32 := rfl
@[simp] theorem State.hardReset_blockCnt (s : State) : (s.hardReset).blockCnt = 0#32 := rfl
@[simp] theorem State.hardReset_blockTotal (s : State) : (s.hardReset).blockTotal = 0#32 := rfl
@[simp] theorem State.hardReset_hs (s : State) : (s.hardReset).hs = iv := rfl
@[simp] theorem State.hardReset_digest (s : State) : (s.hardReset).digest = ⟨0#32, 0#32, 0#32, 0#32⟩ := rfl
@[simp] theorem State.hardReset_msgbuf (s : State) : (s.hardReset).msgbuf = ⟨s.draws, []⟩ := rfl
@[simp] theorem State.hardReset_sv (s : State) : (s.hardReset).sv = ⟨0#32, 0#32, 0#32, 0#32⟩ := rfl
@[simp] theorem State.hardReset_ct (s : State) : (s.hardReset).ct = Vector.replicate 256 0#8 := rfl
@[simp] theorem State.hardReset_ha (s : State) : (s.hardReset).ha = Vector.replicate 32 0#4 := rfl
@[simp] theorem State.hardReset_work (s : State) : (s.hardReset).work = [] := rfl
@[simp] theorem State.hardReset_runN (s : State) : (s.hardReset).runN = 0#32 := rfl
@[simp] theorem State.hardReset_dg (s : State) : (s.hardReset).dg = Vector.replicate 16 0#8 := rfl
@[simp] theorem State.hardReset_rst (s : State) : (s.hardReset).rst = true := rfl
@[simp] theorem State.hardReset_inner (s : State) : (s.hardReset).inner = .outside := rfl
@[simp] theorem State.hardReset_pending (s : State) : (s.hardReset).pending = s.pending := rfl
@[simp] theorem State.hardReset_answer (s : State) : (s.hardReset).answer = none := rfl
@[simp] theorem State.hardReset_gap (s : State) : (s.hardReset).gap = s.gap := rfl
@[simp] theorem State.hardReset_draws (s : State) : (s.hardReset).draws = s.draws + 1 := rfl

/-! ### `State.driveRst`: each level -/
@[simp] theorem State.driveRst_true (s : State) : s.driveRst true = s.hardReset := rfl
@[simp] theorem State.driveRst_false (s : State) : s.driveRst false = { s with rst := false } := rfl

/-! ### `State.endOfBlock` -/
@[simp] theorem State.endOfBlock_cfg (s : State) : (s.endOfBlock).cfg = s.cfg := rfl
@[simp] theorem State.endOfBlock_busy (s : State) : (s.endOfBlock).busy = s.busy := rfl
@[simp] theorem State.endOfBlock_done (s : State) : (s.endOfBlock).done = s.done := rfl
@[simp] theorem State.endOfBlock_err (s : State) : (s.endOfBlock).err = s.err := rfl
@[simp] theorem State.endOfBlock_errcode (s : State) : (s.endOfBlock).errcode = s.errcode := rfl
theorem State.endOfBlock_phase (s : State) : (s.endOfBlock).phase = (if s.blockCnt.toNat + 1 < s.blockTotal.toNat then 5#4 else if s.option 4 then 8#4 else 9#4) := rfl
@[simp] theorem State.endOfBlock_opts (s : State) : (s.endOfBlock).opts = s.opts := rfl
@[simp] theorem State.endOfBlock_hexin (s : State) : (s.endOfBlock).hexin = s.hexin := rfl
@[simp] theorem State.endOfBlock_msgLen (s : State) : (s.endOfBlock).msgLen = s.msgLen := rfl
@[simp] theorem State.endOfBlock_doneIe (s : State) : (s.endOfBlock).doneIe = s.doneIe := rfl
@[simp] theorem State.endOfBlock_errIe (s : State) : (s.endOfBlock).errIe = s.errIe := rfl
@[simp] theorem State.endOfBlock_errinfo (s : State) : (s.endOfBlock).errinfo = s.errinfo := rfl
@[simp] theorem State.endOfBlock_blockCnt (s : State) : (s.endOfBlock).blockCnt = s.blockCnt + 1#32 := rfl
@[simp] theorem State.endOfBlock_blockTotal (s : State) : (s.endOfBlock).blockTotal = s.blockTotal := rfl
@[simp] theorem State.endOfBlock_hs (s : State) : (s.endOfBlock).hs = s.hs := rfl
@[simp] theorem State.endOfBlock_digest (s : State) : (s.endOfBlock).digest = s.digest := rfl
@[simp] theorem State.endOfBlock_msgbuf (s : State) : (s.endOfBlock).msgbuf = s.msgbuf := rfl
@[simp] theorem State.endOfBlock_sv (s : State) : (s.endOfBlock).sv = s.sv := rfl
@[simp] theorem State.endOfBlock_ct (s : State) : (s.endOfBlock).ct = s.ct := rfl
@[simp] theorem State.endOfBlock_ha (s : State) : (s.endOfBlock).ha = s.ha := rfl
@[simp] theorem State.endOfBlock_work (s : State) : (s.endOfBlock).work = s.work := rfl
@[simp] theorem State.endOfBlock_runN (s : State) : (s.endOfBlock).runN = s.runN := rfl
@[simp] theorem State.endOfBlock_dg (s : State) : (s.endOfBlock).dg = s.dg := rfl
@[simp] theorem State.endOfBlock_rst (s : State) : (s.endOfBlock).rst = s.rst := rfl
@[simp] theorem State.endOfBlock_inner (s : State) : (s.endOfBlock).inner = s.inner := rfl
@[simp] theorem State.endOfBlock_pending (s : State) : (s.endOfBlock).pending = s.pending := rfl
@[simp] theorem State.endOfBlock_answer (s : State) : (s.endOfBlock).answer = s.answer := rfl
@[simp] theorem State.endOfBlock_gap (s : State) : (s.endOfBlock).gap = s.gap := rfl
@[simp] theorem State.endOfBlock_draws (s : State) : (s.endOfBlock).draws = s.draws := rfl

/-! ### `State.sequencerGoes` -/
@[simp] theorem State.sequencerGoes_cfg (s : State) : (s.sequencerGoes).cfg = s.cfg := rfl
@[simp] theorem State.sequencerGoes_busy (s : State) : (s.sequencerGoes).busy = s.busy := rfl
@[simp] theorem State.sequencerGoes_done (s : State) : (s.sequencerGoes).done = s.done := rfl
@[simp] theorem State.sequencerGoes_err (s : State) : (s.sequencerGoes).err = s.err := rfl
@[simp] theorem State.sequencerGoes_errcode (s : State) : (s.sequencerGoes).errcode = s.errcode := rfl
@[simp] theorem State.sequencerGoes_phase (s : State) : (s.sequencerGoes).phase = s.phase := rfl
@[simp] theorem State.sequencerGoes_opts (s : State) : (s.sequencerGoes).opts = s.opts := rfl
@[simp] theorem State.sequencerGoes_hexin (s : State) : (s.sequencerGoes).hexin = s.hexin := rfl
@[simp] theorem State.sequencerGoes_msgLen (s : State) : (s.sequencerGoes).msgLen = s.msgLen := rfl
@[simp] theorem State.sequencerGoes_doneIe (s : State) : (s.sequencerGoes).doneIe = s.doneIe := rfl
@[simp] theorem State.sequencerGoes_errIe (s : State) : (s.sequencerGoes).errIe = s.errIe := rfl
@[simp] theorem State.sequencerGoes_errinfo (s : State) : (s.sequencerGoes).errinfo = s.errinfo := rfl
@[simp] theorem State.sequencerGoes_blockCnt (s : State) : (s.sequencerGoes).blockCnt = s.blockCnt := rfl
@[simp] theorem State.sequencerGoes_blockTotal (s : State) : (s.sequencerGoes).blockTotal = s.blockTotal := rfl
@[simp] theorem State.sequencerGoes_hs (s : State) : (s.sequencerGoes).hs = s.hs := rfl
@[simp] theorem State.sequencerGoes_digest (s : State) : (s.sequencerGoes).digest = s.digest := rfl
@[simp] theorem State.sequencerGoes_msgbuf (s : State) : (s.sequencerGoes).msgbuf = s.msgbuf := rfl
@[simp] theorem State.sequencerGoes_sv (s : State) : (s.sequencerGoes).sv = s.sv := rfl
@[simp] theorem State.sequencerGoes_ct (s : State) : (s.sequencerGoes).ct = s.ct := rfl
@[simp] theorem State.sequencerGoes_ha (s : State) : (s.sequencerGoes).ha = s.ha := rfl
@[simp] theorem State.sequencerGoes_work (s : State) : (s.sequencerGoes).work = s.work := rfl
@[simp] theorem State.sequencerGoes_runN (s : State) : (s.sequencerGoes).runN = s.runN := rfl
@[simp] theorem State.sequencerGoes_dg (s : State) : (s.sequencerGoes).dg = s.dg := rfl
@[simp] theorem State.sequencerGoes_rst (s : State) : (s.sequencerGoes).rst = s.rst := rfl
@[simp] theorem State.sequencerGoes_inner (s : State) : (s.sequencerGoes).inner = s.inner := rfl
@[simp] theorem State.sequencerGoes_pending (s : State) : (s.sequencerGoes).pending = s.pending := rfl
@[simp] theorem State.sequencerGoes_answer (s : State) : (s.sequencerGoes).answer = s.answer := rfl
@[simp] theorem State.sequencerGoes_gap (s : State) : (s.sequencerGoes).gap = Config.gapDraw s.draws := rfl
@[simp] theorem State.sequencerGoes_draws (s : State) : (s.sequencerGoes).draws = s.draws + 1 := rfl

/-! ### `State.roundGoes` -/
@[simp] theorem State.roundGoes_cfg (s : State) (j : BitVec 6) : (s.roundGoes j).cfg = s.cfg := rfl
@[simp] theorem State.roundGoes_busy (s : State) (j : BitVec 6) : (s.roundGoes j).busy = s.busy := rfl
@[simp] theorem State.roundGoes_done (s : State) (j : BitVec 6) : (s.roundGoes j).done = s.done := rfl
@[simp] theorem State.roundGoes_err (s : State) (j : BitVec 6) : (s.roundGoes j).err = s.err := rfl
@[simp] theorem State.roundGoes_errcode (s : State) (j : BitVec 6) : (s.roundGoes j).errcode = s.errcode := rfl
@[simp] theorem State.roundGoes_phase (s : State) (j : BitVec 6) : (s.roundGoes j).phase = s.phase := rfl
@[simp] theorem State.roundGoes_opts (s : State) (j : BitVec 6) : (s.roundGoes j).opts = s.opts := rfl
@[simp] theorem State.roundGoes_hexin (s : State) (j : BitVec 6) : (s.roundGoes j).hexin = s.hexin := rfl
@[simp] theorem State.roundGoes_msgLen (s : State) (j : BitVec 6) : (s.roundGoes j).msgLen = s.msgLen := rfl
@[simp] theorem State.roundGoes_doneIe (s : State) (j : BitVec 6) : (s.roundGoes j).doneIe = s.doneIe := rfl
@[simp] theorem State.roundGoes_errIe (s : State) (j : BitVec 6) : (s.roundGoes j).errIe = s.errIe := rfl
@[simp] theorem State.roundGoes_errinfo (s : State) (j : BitVec 6) : (s.roundGoes j).errinfo = s.errinfo := rfl
@[simp] theorem State.roundGoes_blockCnt (s : State) (j : BitVec 6) : (s.roundGoes j).blockCnt = s.blockCnt := rfl
@[simp] theorem State.roundGoes_blockTotal (s : State) (j : BitVec 6) : (s.roundGoes j).blockTotal = s.blockTotal := rfl
@[simp] theorem State.roundGoes_hs (s : State) (j : BitVec 6) : (s.roundGoes j).hs = s.hs := rfl
@[simp] theorem State.roundGoes_digest (s : State) (j : BitVec 6) : (s.roundGoes j).digest = s.digest := rfl
@[simp] theorem State.roundGoes_msgbuf (s : State) (j : BitVec 6) : (s.roundGoes j).msgbuf = s.msgbuf := rfl
@[simp] theorem State.roundGoes_sv (s : State) (j : BitVec 6) : (s.roundGoes j).sv = s.sv := rfl
@[simp] theorem State.roundGoes_ct (s : State) (j : BitVec 6) : (s.roundGoes j).ct = s.ct := rfl
@[simp] theorem State.roundGoes_ha (s : State) (j : BitVec 6) : (s.roundGoes j).ha = s.ha := rfl
@[simp] theorem State.roundGoes_work (s : State) (j : BitVec 6) : (s.roundGoes j).work = s.work := rfl
@[simp] theorem State.roundGoes_runN (s : State) (j : BitVec 6) : (s.roundGoes j).runN = s.runN := rfl
@[simp] theorem State.roundGoes_dg (s : State) (j : BitVec 6) : (s.roundGoes j).dg = s.dg := rfl
@[simp] theorem State.roundGoes_rst (s : State) (j : BitVec 6) : (s.roundGoes j).rst = s.rst := rfl
@[simp] theorem State.roundGoes_inner (s : State) (j : BitVec 6) : (s.roundGoes j).inner = (if j = 63#6 then .tail else .round (j + 1#6)) := rfl
@[simp] theorem State.roundGoes_pending (s : State) (j : BitVec 6) : (s.roundGoes j).pending = s.pending := rfl
@[simp] theorem State.roundGoes_answer (s : State) (j : BitVec 6) : (s.roundGoes j).answer = s.answer := rfl
@[simp] theorem State.roundGoes_gap (s : State) (j : BitVec 6) : (s.roundGoes j).gap = s.gap := rfl
@[simp] theorem State.roundGoes_draws (s : State) (j : BitVec 6) : (s.roundGoes j).draws = s.draws := rfl

/-! ### `State.compressBegin` -/
@[simp] theorem State.compressBegin_cfg (s : State) : (s.compressBegin).cfg = s.cfg := rfl
@[simp] theorem State.compressBegin_busy (s : State) : (s.compressBegin).busy = s.busy := rfl
@[simp] theorem State.compressBegin_done (s : State) : (s.compressBegin).done = s.done := rfl
@[simp] theorem State.compressBegin_err (s : State) : (s.compressBegin).err = s.err := rfl
@[simp] theorem State.compressBegin_errcode (s : State) : (s.compressBegin).errcode = s.errcode := rfl
@[simp] theorem State.compressBegin_phase (s : State) : (s.compressBegin).phase = s.phase := rfl
@[simp] theorem State.compressBegin_opts (s : State) : (s.compressBegin).opts = s.opts := rfl
@[simp] theorem State.compressBegin_hexin (s : State) : (s.compressBegin).hexin = s.hexin := rfl
@[simp] theorem State.compressBegin_msgLen (s : State) : (s.compressBegin).msgLen = s.msgLen := rfl
@[simp] theorem State.compressBegin_doneIe (s : State) : (s.compressBegin).doneIe = s.doneIe := rfl
@[simp] theorem State.compressBegin_errIe (s : State) : (s.compressBegin).errIe = s.errIe := rfl
@[simp] theorem State.compressBegin_errinfo (s : State) : (s.compressBegin).errinfo = s.errinfo := rfl
@[simp] theorem State.compressBegin_blockCnt (s : State) : (s.compressBegin).blockCnt = s.blockCnt := rfl
@[simp] theorem State.compressBegin_blockTotal (s : State) : (s.compressBegin).blockTotal = s.blockTotal := rfl
@[simp] theorem State.compressBegin_hs (s : State) : (s.compressBegin).hs = s.hs := rfl
@[simp] theorem State.compressBegin_digest (s : State) : (s.compressBegin).digest = s.digest := rfl
@[simp] theorem State.compressBegin_msgbuf (s : State) : (s.compressBegin).msgbuf = s.msgbuf := rfl
@[simp] theorem State.compressBegin_sv (s : State) : (s.compressBegin).sv = s.hs := rfl
@[simp] theorem State.compressBegin_ct (s : State) : (s.compressBegin).ct = s.ct := rfl
@[simp] theorem State.compressBegin_ha (s : State) : (s.compressBegin).ha = s.ha := rfl
@[simp] theorem State.compressBegin_work (s : State) : (s.compressBegin).work = s.work := rfl
@[simp] theorem State.compressBegin_runN (s : State) : (s.compressBegin).runN = s.runN := rfl
@[simp] theorem State.compressBegin_dg (s : State) : (s.compressBegin).dg = s.dg := rfl
@[simp] theorem State.compressBegin_rst (s : State) : (s.compressBegin).rst = s.rst := rfl
@[simp] theorem State.compressBegin_inner (s : State) : (s.compressBegin).inner = .round 0#6 := rfl
@[simp] theorem State.compressBegin_pending (s : State) : (s.compressBegin).pending = s.pending := rfl
@[simp] theorem State.compressBegin_answer (s : State) : (s.compressBegin).answer = s.answer := rfl
@[simp] theorem State.compressBegin_gap (s : State) : (s.compressBegin).gap = s.gap := rfl
@[simp] theorem State.compressBegin_draws (s : State) : (s.compressBegin).draws = s.draws := rfl

/-! ### `State.hostGoes`: what it leaves -/
@[simp] theorem State.hostGoes_cfg (s : State) (rest : List HostOp) : (s.hostGoes rest).cfg = s.cfg := by
  unfold State.hostGoes; split <;> rfl
@[simp] theorem State.hostGoes_busy (s : State) (rest : List HostOp) : (s.hostGoes rest).busy = s.busy := by
  unfold State.hostGoes; split <;> rfl
@[simp] theorem State.hostGoes_done (s : State) (rest : List HostOp) : (s.hostGoes rest).done = s.done := by
  unfold State.hostGoes; split <;> rfl
@[simp] theorem State.hostGoes_err (s : State) (rest : List HostOp) : (s.hostGoes rest).err = s.err := by
  unfold State.hostGoes; split <;> rfl
@[simp] theorem State.hostGoes_errcode (s : State) (rest : List HostOp) : (s.hostGoes rest).errcode = s.errcode := by
  unfold State.hostGoes; split <;> rfl
@[simp] theorem State.hostGoes_phase (s : State) (rest : List HostOp) : (s.hostGoes rest).phase = s.phase := by
  unfold State.hostGoes; split <;> rfl
@[simp] theorem State.hostGoes_opts (s : State) (rest : List HostOp) : (s.hostGoes rest).opts = s.opts := by
  unfold State.hostGoes; split <;> rfl
@[simp] theorem State.hostGoes_hexin (s : State) (rest : List HostOp) : (s.hostGoes rest).hexin = s.hexin := by
  unfold State.hostGoes; split <;> rfl
@[simp] theorem State.hostGoes_msgLen (s : State) (rest : List HostOp) : (s.hostGoes rest).msgLen = s.msgLen := by
  unfold State.hostGoes; split <;> rfl
@[simp] theorem State.hostGoes_doneIe (s : State) (rest : List HostOp) : (s.hostGoes rest).doneIe = s.doneIe := by
  unfold State.hostGoes; split <;> rfl
@[simp] theorem State.hostGoes_errIe (s : State) (rest : List HostOp) : (s.hostGoes rest).errIe = s.errIe := by
  unfold State.hostGoes; split <;> rfl
@[simp] theorem State.hostGoes_errinfo (s : State) (rest : List HostOp) : (s.hostGoes rest).errinfo = s.errinfo := by
  unfold State.hostGoes; split <;> rfl
@[simp] theorem State.hostGoes_blockCnt (s : State) (rest : List HostOp) : (s.hostGoes rest).blockCnt = s.blockCnt := by
  unfold State.hostGoes; split <;> rfl
@[simp] theorem State.hostGoes_blockTotal (s : State) (rest : List HostOp) : (s.hostGoes rest).blockTotal = s.blockTotal := by
  unfold State.hostGoes; split <;> rfl
@[simp] theorem State.hostGoes_hs (s : State) (rest : List HostOp) : (s.hostGoes rest).hs = s.hs := by
  unfold State.hostGoes; split <;> rfl
@[simp] theorem State.hostGoes_digest (s : State) (rest : List HostOp) : (s.hostGoes rest).digest = s.digest := by
  unfold State.hostGoes; split <;> rfl
@[simp] theorem State.hostGoes_msgbuf (s : State) (rest : List HostOp) : (s.hostGoes rest).msgbuf = s.msgbuf := by
  unfold State.hostGoes; split <;> rfl
@[simp] theorem State.hostGoes_sv (s : State) (rest : List HostOp) : (s.hostGoes rest).sv = s.sv := by
  unfold State.hostGoes; split <;> rfl
@[simp] theorem State.hostGoes_ct (s : State) (rest : List HostOp) : (s.hostGoes rest).ct = s.ct := by
  unfold State.hostGoes; split <;> rfl
@[simp] theorem State.hostGoes_ha (s : State) (rest : List HostOp) : (s.hostGoes rest).ha = s.ha := by
  unfold State.hostGoes; split <;> rfl
@[simp] theorem State.hostGoes_work (s : State) (rest : List HostOp) : (s.hostGoes rest).work = s.work := by
  unfold State.hostGoes; split <;> rfl
@[simp] theorem State.hostGoes_runN (s : State) (rest : List HostOp) : (s.hostGoes rest).runN = s.runN := by
  unfold State.hostGoes; split <;> rfl
@[simp] theorem State.hostGoes_dg (s : State) (rest : List HostOp) : (s.hostGoes rest).dg = s.dg := by
  unfold State.hostGoes; split <;> rfl
@[simp] theorem State.hostGoes_rst (s : State) (rest : List HostOp) : (s.hostGoes rest).rst = s.rst := by
  unfold State.hostGoes; split <;> rfl
@[simp] theorem State.hostGoes_inner (s : State) (rest : List HostOp) : (s.hostGoes rest).inner = s.inner := by
  unfold State.hostGoes; split <;> rfl
@[simp] theorem State.hostGoes_answer (s : State) (rest : List HostOp) : (s.hostGoes rest).answer = s.answer := by
  unfold State.hostGoes; split <;> rfl
@[simp] theorem State.hostGoes_pending (s : State) (rest : List HostOp) : (s.hostGoes rest).pending = rest := by
  unfold State.hostGoes; split <;> rfl

/-! ### `State.afterCompress`: what it leaves -/
@[simp] theorem State.afterCompress_cfg (s : State) : (s.afterCompress).cfg = s.cfg := by
  unfold State.afterCompress; split; · rfl
  split <;> rfl
@[simp] theorem State.afterCompress_busy (s : State) : (s.afterCompress).busy = s.busy := by
  unfold State.afterCompress; split; · rfl
  split <;> rfl
@[simp] theorem State.afterCompress_done (s : State) : (s.afterCompress).done = s.done := by
  unfold State.afterCompress; split; · rfl
  split <;> rfl
@[simp] theorem State.afterCompress_err (s : State) : (s.afterCompress).err = s.err := by
  unfold State.afterCompress; split; · rfl
  split <;> rfl
@[simp] theorem State.afterCompress_errcode (s : State) : (s.afterCompress).errcode = s.errcode := by
  unfold State.afterCompress; split; · rfl
  split <;> rfl
@[simp] theorem State.afterCompress_opts (s : State) : (s.afterCompress).opts = s.opts := by
  unfold State.afterCompress; split; · rfl
  split <;> rfl
@[simp] theorem State.afterCompress_hexin (s : State) : (s.afterCompress).hexin = s.hexin := by
  unfold State.afterCompress; split; · rfl
  split <;> rfl
@[simp] theorem State.afterCompress_msgLen (s : State) : (s.afterCompress).msgLen = s.msgLen := by
  unfold State.afterCompress; split; · rfl
  split <;> rfl
@[simp] theorem State.afterCompress_doneIe (s : State) : (s.afterCompress).doneIe = s.doneIe := by
  unfold State.afterCompress; split; · rfl
  split <;> rfl
@[simp] theorem State.afterCompress_errIe (s : State) : (s.afterCompress).errIe = s.errIe := by
  unfold State.afterCompress; split; · rfl
  split <;> rfl
@[simp] theorem State.afterCompress_errinfo (s : State) : (s.afterCompress).errinfo = s.errinfo := by
  unfold State.afterCompress; split; · rfl
  split <;> rfl
@[simp] theorem State.afterCompress_blockTotal (s : State) : (s.afterCompress).blockTotal = s.blockTotal := by
  unfold State.afterCompress; split; · rfl
  split <;> rfl
@[simp] theorem State.afterCompress_hs (s : State) : (s.afterCompress).hs = s.hs := by
  unfold State.afterCompress; split; · rfl
  split <;> rfl
@[simp] theorem State.afterCompress_digest (s : State) : (s.afterCompress).digest = s.digest := by
  unfold State.afterCompress; split; · rfl
  split <;> rfl
@[simp] theorem State.afterCompress_msgbuf (s : State) : (s.afterCompress).msgbuf = s.msgbuf := by
  unfold State.afterCompress; split; · rfl
  split <;> rfl
@[simp] theorem State.afterCompress_sv (s : State) : (s.afterCompress).sv = s.sv := by
  unfold State.afterCompress; split; · rfl
  split <;> rfl
@[simp] theorem State.afterCompress_ct (s : State) : (s.afterCompress).ct = s.ct := by
  unfold State.afterCompress; split; · rfl
  split <;> rfl
@[simp] theorem State.afterCompress_ha (s : State) : (s.afterCompress).ha = s.ha := by
  unfold State.afterCompress; split; · rfl
  split <;> rfl
@[simp] theorem State.afterCompress_work (s : State) : (s.afterCompress).work = s.work := by
  unfold State.afterCompress; split; · rfl
  split <;> rfl
@[simp] theorem State.afterCompress_runN (s : State) : (s.afterCompress).runN = s.runN := by
  unfold State.afterCompress; split; · rfl
  split <;> rfl
@[simp] theorem State.afterCompress_dg (s : State) : (s.afterCompress).dg = s.dg := by
  unfold State.afterCompress; split; · rfl
  split <;> rfl
@[simp] theorem State.afterCompress_rst (s : State) : (s.afterCompress).rst = s.rst := by
  unfold State.afterCompress; split; · rfl
  split <;> rfl
@[simp] theorem State.afterCompress_inner (s : State) : (s.afterCompress).inner = s.inner := by
  unfold State.afterCompress; split; · rfl
  split <;> rfl
@[simp] theorem State.afterCompress_pending (s : State) : (s.afterCompress).pending = s.pending := by
  unfold State.afterCompress; split; · rfl
  split <;> rfl
@[simp] theorem State.afterCompress_answer (s : State) : (s.afterCompress).answer = s.answer := by
  unfold State.afterCompress; split; · rfl
  split <;> rfl
@[simp] theorem State.afterCompress_gap (s : State) : (s.afterCompress).gap = s.gap := by
  unfold State.afterCompress; split; · rfl
  split <;> rfl
@[simp] theorem State.afterCompress_draws (s : State) : (s.afterCompress).draws = s.draws := by
  unfold State.afterCompress; split; · rfl
  split <;> rfl

/-! ### `State.afterChaos`: what it leaves -/
@[simp] theorem State.afterChaos_cfg (s : State) : (s.afterChaos).cfg = s.cfg := by
  unfold State.afterChaos; split <;> rfl
@[simp] theorem State.afterChaos_busy (s : State) : (s.afterChaos).busy = s.busy := by
  unfold State.afterChaos; split <;> rfl
@[simp] theorem State.afterChaos_done (s : State) : (s.afterChaos).done = s.done := by
  unfold State.afterChaos; split <;> rfl
@[simp] theorem State.afterChaos_err (s : State) : (s.afterChaos).err = s.err := by
  unfold State.afterChaos; split <;> rfl
@[simp] theorem State.afterChaos_errcode (s : State) : (s.afterChaos).errcode = s.errcode := by
  unfold State.afterChaos; split <;> rfl
@[simp] theorem State.afterChaos_opts (s : State) : (s.afterChaos).opts = s.opts := by
  unfold State.afterChaos; split <;> rfl
@[simp] theorem State.afterChaos_hexin (s : State) : (s.afterChaos).hexin = s.hexin := by
  unfold State.afterChaos; split <;> rfl
@[simp] theorem State.afterChaos_msgLen (s : State) : (s.afterChaos).msgLen = s.msgLen := by
  unfold State.afterChaos; split <;> rfl
@[simp] theorem State.afterChaos_doneIe (s : State) : (s.afterChaos).doneIe = s.doneIe := by
  unfold State.afterChaos; split <;> rfl
@[simp] theorem State.afterChaos_errIe (s : State) : (s.afterChaos).errIe = s.errIe := by
  unfold State.afterChaos; split <;> rfl
@[simp] theorem State.afterChaos_errinfo (s : State) : (s.afterChaos).errinfo = s.errinfo := by
  unfold State.afterChaos; split <;> rfl
@[simp] theorem State.afterChaos_blockTotal (s : State) : (s.afterChaos).blockTotal = s.blockTotal := by
  unfold State.afterChaos; split <;> rfl
@[simp] theorem State.afterChaos_hs (s : State) : (s.afterChaos).hs = s.hs := by
  unfold State.afterChaos; split <;> rfl
@[simp] theorem State.afterChaos_digest (s : State) : (s.afterChaos).digest = s.digest := by
  unfold State.afterChaos; split <;> rfl
@[simp] theorem State.afterChaos_msgbuf (s : State) : (s.afterChaos).msgbuf = s.msgbuf := by
  unfold State.afterChaos; split <;> rfl
@[simp] theorem State.afterChaos_sv (s : State) : (s.afterChaos).sv = s.sv := by
  unfold State.afterChaos; split <;> rfl
@[simp] theorem State.afterChaos_ct (s : State) : (s.afterChaos).ct = s.ct := by
  unfold State.afterChaos; split <;> rfl
@[simp] theorem State.afterChaos_ha (s : State) : (s.afterChaos).ha = s.ha := by
  unfold State.afterChaos; split <;> rfl
@[simp] theorem State.afterChaos_work (s : State) : (s.afterChaos).work = s.work := by
  unfold State.afterChaos; split <;> rfl
@[simp] theorem State.afterChaos_runN (s : State) : (s.afterChaos).runN = s.runN := by
  unfold State.afterChaos; split <;> rfl
@[simp] theorem State.afterChaos_dg (s : State) : (s.afterChaos).dg = s.dg := by
  unfold State.afterChaos; split <;> rfl
@[simp] theorem State.afterChaos_rst (s : State) : (s.afterChaos).rst = s.rst := by
  unfold State.afterChaos; split <;> rfl
@[simp] theorem State.afterChaos_inner (s : State) : (s.afterChaos).inner = s.inner := by
  unfold State.afterChaos; split <;> rfl
@[simp] theorem State.afterChaos_pending (s : State) : (s.afterChaos).pending = s.pending := by
  unfold State.afterChaos; split <;> rfl
@[simp] theorem State.afterChaos_answer (s : State) : (s.afterChaos).answer = s.answer := by
  unfold State.afterChaos; split <;> rfl
@[simp] theorem State.afterChaos_gap (s : State) : (s.afterChaos).gap = s.gap := by
  unfold State.afterChaos; split <;> rfl
@[simp] theorem State.afterChaos_draws (s : State) : (s.afterChaos).draws = s.draws := by
  unfold State.afterChaos; split <;> rfl

/-! ### `State.compressTail`: what it leaves -/
@[simp] theorem State.compressTail_cfg (s : State) : (s.compressTail).cfg = s.cfg := by
  unfold State.compressTail; simp
@[simp] theorem State.compressTail_busy (s : State) : (s.compressTail).busy = s.busy := by
  unfold State.compressTail; simp
@[simp] theorem State.compressTail_done (s : State) : (s.compressTail).done = s.done := by
  unfold State.compressTail; simp
@[simp] theorem State.compressTail_err (s : State) : (s.compressTail).err = s.err := by
  unfold State.compressTail; simp
@[simp] theorem State.compressTail_errcode (s : State) : (s.compressTail).errcode = s.errcode := by
  unfold State.compressTail; simp
@[simp] theorem State.compressTail_opts (s : State) : (s.compressTail).opts = s.opts := by
  unfold State.compressTail; simp
@[simp] theorem State.compressTail_hexin (s : State) : (s.compressTail).hexin = s.hexin := by
  unfold State.compressTail; simp
@[simp] theorem State.compressTail_msgLen (s : State) : (s.compressTail).msgLen = s.msgLen := by
  unfold State.compressTail; simp
@[simp] theorem State.compressTail_doneIe (s : State) : (s.compressTail).doneIe = s.doneIe := by
  unfold State.compressTail; simp
@[simp] theorem State.compressTail_errIe (s : State) : (s.compressTail).errIe = s.errIe := by
  unfold State.compressTail; simp
@[simp] theorem State.compressTail_errinfo (s : State) : (s.compressTail).errinfo = s.errinfo := by
  unfold State.compressTail; simp
@[simp] theorem State.compressTail_blockTotal (s : State) : (s.compressTail).blockTotal = s.blockTotal := by
  unfold State.compressTail; simp
@[simp] theorem State.compressTail_digest (s : State) : (s.compressTail).digest = s.digest := by
  unfold State.compressTail; simp
@[simp] theorem State.compressTail_msgbuf (s : State) : (s.compressTail).msgbuf = s.msgbuf := by
  unfold State.compressTail; simp
@[simp] theorem State.compressTail_sv (s : State) : (s.compressTail).sv = s.sv := by
  unfold State.compressTail; simp
@[simp] theorem State.compressTail_ct (s : State) : (s.compressTail).ct = s.ct := by
  unfold State.compressTail; simp
@[simp] theorem State.compressTail_ha (s : State) : (s.compressTail).ha = s.ha := by
  unfold State.compressTail; simp
@[simp] theorem State.compressTail_work (s : State) : (s.compressTail).work = s.work := by
  unfold State.compressTail; simp
@[simp] theorem State.compressTail_runN (s : State) : (s.compressTail).runN = s.runN := by
  unfold State.compressTail; simp
@[simp] theorem State.compressTail_dg (s : State) : (s.compressTail).dg = s.dg := by
  unfold State.compressTail; simp
@[simp] theorem State.compressTail_rst (s : State) : (s.compressTail).rst = s.rst := by
  unfold State.compressTail; simp
@[simp] theorem State.compressTail_pending (s : State) : (s.compressTail).pending = s.pending := by
  unfold State.compressTail; simp
@[simp] theorem State.compressTail_answer (s : State) : (s.compressTail).answer = s.answer := by
  unfold State.compressTail; simp
@[simp] theorem State.compressTail_gap (s : State) : (s.compressTail).gap = s.gap := by
  unfold State.compressTail; simp
@[simp] theorem State.compressTail_draws (s : State) : (s.compressTail).draws = s.draws := by
  unfold State.compressTail; simp
@[simp] theorem State.compressTail_hs (s : State) : s.compressTail.hs = quadAdd s.hs s.sv := by
  unfold State.compressTail; simp
@[simp] theorem State.compressTail_inner (s : State) : s.compressTail.inner = .outside := by
  unfold State.compressTail; simp

end Sys2Proof.Machine
end

