-- ==== Sys2Proof/Laws/Exec.lean ====
section
/-! SUPPORT. What holds of every meaning: it answers a next state, and leaves the configuration and
the host's side of the state alone. -/

namespace Sys2Proof.Machine

/-- Two states agree on the configuration, on the level of `rst` and on the model's own record of the host. -/
structure State.SameHost (s t : State) : Prop where
  cfg : t.cfg = s.cfg
  rst : t.rst = s.rst
  pending : t.pending = s.pending
  answer : t.answer = s.answer
  gap : t.gap = s.gap
  draws : t.draws = s.draws

theorem execCheck_cases {s t : State} (h : execCheck s = .next t) :
    (∃ e info, s.checkError = some (e, info) ∧ t = s.raise e info) ∨
      (s.checkError = none ∧ t = s.seqTo 2#4 0#32) := by
  unfold execCheck at h
  split at h
  · rename_i e info he
    cases h
    exact .inl ⟨e, info, he, rfl⟩
  · rename_i he
    cases h
    exact .inr ⟨he, rfl⟩

theorem execStart_cases {opts : BitVec 4} {hexin : Bool} {s t : State}
    (h : execStart opts hexin s = .next t) :
    (s.busy = true ∧ t = s.raise .busy (startWord opts hexin)) ∨
      (s.busy = false ∧ t = s.startRun opts hexin) := by
  unfold execStart at h
  split at h
  · rename_i hb
    cases h
    exact .inl ⟨hb, rfl⟩
  · rename_i hb
    cases h
    exact .inr ⟨by simpa using hb, rfl⟩

/-- No operation of the opcode table stops the machine. -/
theorem exec_completes (i : Instr) (s : State) : ∃ t, exec i s = .next t := by
  cases i with
  | start opts hexin => simp only [exec, execStart]; split <;> exact ⟨_, rfl⟩
  | check => simp only [exec, execCheck]; split <;> exact ⟨_, rfl⟩
  | _ => exact ⟨_, rfl⟩

/-- No operation of the opcode table touches the configuration or the host's side. -/
theorem exec_sameHost {i : Instr} {s t : State} (h : exec i s = .next t) : s.SameHost t := by
  cases i with
  | start opts hexin =>
    rcases execStart_cases h with ⟨-, rfl⟩ | ⟨-, rfl⟩ <;> exact ⟨rfl, rfl, rfl, rfl, rfl, rfl⟩
  | check =>
    rcases execCheck_cases h with ⟨e, info, -, rfl⟩ | ⟨-, rfl⟩ <;> exact ⟨rfl, rfl, rfl, rfl, rfl, rfl⟩
  | compress => cases h; constructor <;> simp
  | chaos => cases h; constructor <;> simp
  | _ => cases h; exact ⟨rfl, rfl, rfl, rfl, rfl, rfl⟩

/-- CHECK finds no error exactly when CHECK's conditions hold. -/
theorem firstNonHex_none {m : Memory} {k n : Nat} :
    firstNonHex m k n = none ↔ ∀ i < n, (hexval (m.read (k + i))).isSome = true := by
  induction n generalizing k with
  | zero => simp [firstNonHex]
  | succ n ih =>
    simp only [firstNonHex]
    split
    · rename_i h
      simp only [reduceCtorEq, false_iff, not_forall]
      exact ⟨0, by omega, by simpa using h⟩
    · rename_i h
      rw [ih]
      constructor
      · intro H i hi
        cases i with
        | zero => simpa [Option.isSome_iff_ne_none] using h
        | succ i => simpa [Nat.add_assoc, Nat.add_comm 1] using H i (by omega)
      · intro H i hi
        simpa [Nat.add_assoc, Nat.add_comm 1] using H (i + 1) (by omega)

/-- The index found is the lowest one of a character that is no hex character. -/
theorem firstNonHex_some {m : Memory} {k n j : Nat} :
    firstNonHex m k n = some j ↔
      k ≤ j ∧ j < k + n ∧ hexval (m.read j) = none ∧
        ∀ i, k ≤ i → i < j → (hexval (m.read i)).isSome = true := by
  induction n generalizing k with
  | zero => simp only [firstNonHex, reduceCtorEq, false_iff]; omega
  | succ n ih =>
    simp only [firstNonHex]
    split
    · rename_i h
      simp only [Option.isNone_iff_eq_none] at h
      constructor
      · intro hj
        cases hj
        exact ⟨le_refl _, by omega, h, fun i h1 h2 => by omega⟩
      · rintro ⟨h1, h2, h3, h4⟩
        by_contra hne
        have := h4 k (le_refl k) (by simp only [Option.some.injEq] at hne; omega)
        simp [h] at this
    · rename_i h
      rw [ih]
      constructor
      · rintro ⟨h1, h2, h3, h4⟩
        refine ⟨by omega, by omega, h3, fun i hi hij => ?_⟩
        by_cases hik : i = k
        · subst hik
          simpa [Option.isSome_iff_ne_none] using h
        · exact h4 i (by omega) hij
      · rintro ⟨h1, h2, h3, h4⟩
        refine ⟨?_, by omega, h3, fun i hi hij => h4 i (by omega) hij⟩
        by_contra hlt
        have : j = k := by omega
        simp [this, Option.isNone_iff_eq_none] at h h3
        exact h h3

end Sys2Proof.Machine
end

