-- ==== Sys2Proof/Laws/Bus.lean ====
section
/-! SUPPORT. What a bus transaction and a host event can do. -/

namespace Sys2Proof.Machine

theorem readReg_cases (r : Reg) (s : State) :
    (readReg r s).2 = s ∨
      s.busy = true ∧ (∃ i, r = .hstate i) ∧ (readReg r s).2 = { s with draws := s.draws + 1 } := by
  cases r with
  | hstate i =>
    simp only [readReg]
    split
    · rename_i h
      exact .inr ⟨h, ⟨i, rfl⟩, rfl⟩
    · exact .inl rfl
  | _ => exact .inl rfl

/-- A read that completes leaves the engine as it is. -/
theorem busRead_cases {width : Width} {off : Word} {s t : State} (h : busRead width off s = .next t) :
    ∃ a d, s.draws ≤ d ∧ t = { s with answer := some a, draws := d } := by
  unfold busRead at h
  split at h
  · cases h
  · split at h <;> cases h
    · rename_i r _ _
      rcases readReg_cases (regAt s.cfg off.toNat) s with hr | ⟨-, -, hr⟩
      · exact ⟨_, s.draws, le_refl _, by rw [hr]⟩
      · exact ⟨_, s.draws + 1, Nat.le_succ _, by rw [hr]⟩
    · exact ⟨_, s.draws + 1, Nat.le_succ _, rfl⟩

theorem busWrite_cases {width : Width} {off v : Word} {s t : State}
    (h : busWrite width off v s = .next t) :
    (admitted width off = false ∧ t = { s with answer := some .error }) ∨
      (admitted width off = true ∧
        writeReg (regAt s.cfg off.toNat) off v { s with answer := some .okay } = .next t) := by
  unfold busWrite at h
  split at h
  · cases h
  · split at h
    · rename_i ha
      exact .inr ⟨ha, h⟩
    · rename_i ha
      cases h
      exact .inl ⟨by simpa using ha, rfl⟩

/-- The offsets that name a MSGBUF word, and the word they name (R20). -/
theorem regAt_msgbuf {c : Config} {off k : Nat} (h : regAt c off = .msgbuf k) :
    0x1000 ≤ off ∧ off < 0x1000 + c.msgBufBytes ∧ k = (off - 0x1000) / 4 := by
  unfold regAt at h
  split at h
  · unfold lowReg at h
    split at h <;> cases h
  split at h
  · rename_i h1 h2
    cases h
    exact ⟨by omega, h2, rfl⟩
  · split at h <;> cases h

theorem writeCmd_cases {v : Word} {s t : State} (h : writeCmd v s = .next t) :
    (∃ i, decodeCmd v = .ok i ∧ exec i s = .next t) ∨
      (∃ r, decodeCmd v = .error r) ∧ t = s.raise .illegal v := by
  unfold writeCmd at h
  split at h
  · rename_i i hi
    exact .inl ⟨i, hi, h⟩
  · rename_i r hr
    cases h
    exact .inr ⟨⟨r, hr⟩, rfl⟩

/-- A CMD word decodes to a command only. -/
theorem decodeCmd_cases {v : Word} {i : Instr} (h : decodeCmd v = .ok i) :
    i = .nop ∨ i = .clear ∨ i = .start (cmdOpts v) (cmdHexin v) := by
  unfold decodeCmd at h
  split at h
  · exact .inl (by injection h with h; exact h.symm)
  split at h
  · exact .inr (.inl (by injection h with h; exact h.symm))
  split at h
  · exact .inr (.inr (by injection h with h; exact h.symm))
  · cases h

/-- Everything a register write can do. -/
theorem writeReg_cases {r : Reg} {off v : Word} {s t : State} (h : writeReg r off v s = .next t) :
    (r = .cmd ∧ writeCmd v s = .next t) ∨ (r = .status ∧ t = s.clearFlags v) ∨
      (s.busy = true ∧ t = s.raise .busyWrite off) ∨ (s.busy = false ∧ t = { s with msgLen := v }) ∨
        t = { s with doneIe := v.getLsbD 0, errIe := v.getLsbD 1 } ∨ t = s ∨
          ∃ k, r = .msgbuf k ∧ s.busy = false ∧
            t = { s with msgbuf := s.msgbuf.writeBytes (4 * k) (bytesLE v) } := by
  cases r with
  | cmd => exact .inl ⟨rfl, h⟩
  | status => cases h; exact .inr (.inl ⟨rfl, rfl⟩)
  | msgLen =>
    simp only [writeReg] at h
    split at h <;> rename_i hb <;> cases h
    · exact .inr (.inr (.inl ⟨hb, rfl⟩))
    · exact .inr (.inr (.inr (.inl ⟨by simpa using hb, rfl⟩)))
  | irqEn => cases h; exact .inr (.inr (.inr (.inr (.inl rfl))))
  | msgbuf w =>
    simp only [writeReg] at h
    split at h <;> rename_i hb
    · cases h
      exact .inr (.inr (.inl ⟨hb, rfl⟩))
    · cases h
      exact .inr (.inr (.inr (.inr (.inr (.inr ⟨w, rfl, by simpa using hb, rfl⟩)))))
  | outside => cases h
  | _ => cases h; exact .inr (.inr (.inr (.inr (.inr (.inl rfl)))))

theorem busWait_cases {off mask want : Word} {s t : State} (h : busWait off mask want s = .next t) :
    ∃ p a d, s.draws ≤ d ∧ t = { s with pending := p, answer := some a, draws := d } := by
  unfold busWait at h
  split at h
  · rename_i u hu
    obtain ⟨a, d, hd, rfl⟩ := busRead_cases hu
    cases h
    split
    · exact ⟨s.pending, _, d, hd, rfl⟩
    · exact ⟨_, _, d, hd, rfl⟩
  · cases h
  · cases h

theorem atPort_cases {f : State → Host.Outcome State Fault Refusal} {s t : State}
    (h : s.atPort f = .next t) :
    (s.rst = true ∧ t = { s with answer := none }) ∨ (s.rst = false ∧ f s = .next t) := by
  unfold State.atPort at h
  split at h
  · rename_i hr
    cases h
    exact .inl ⟨hr, rfl⟩
  · rename_i hr
    exact .inr ⟨by simpa using hr, h⟩

/-- While `rst` is asserted a transaction is not answered, and changes nothing else. -/
theorem atPort_asserted {s : State} (h : s.rst = true) (f : State → Host.Outcome State Fault Refusal) :
    s.atPort f = .next { s with answer := none } := if_pos h

/-- While `rst` is released a transaction is the port's. -/
theorem atPort_released {s : State} (h : s.rst = false) (f : State → Host.Outcome State Fault Refusal) :
    s.atPort f = f s := if_neg (by simp [h])

/-- Everything a host event can do: a read, and a transaction while `rst` is asserted, changes only the
answer, the draws and, for a WAIT, the queue; a write is answered ERROR or writes a register; the
rest drives `rst`. -/
theorem hostEvent_cases {op : HostOp} {s t : State} (h : hostEvent op s = .next t) :
    (∃ p a d, s.draws ≤ d ∧ t = { s with pending := p, answer := a, draws := d }) ∨
      (∃ width off v, op = .write width off v ∧ s.rst = false ∧ admitted width off = true ∧
        writeReg (regAt s.cfg off.toNat) off v { s with answer := some .okay } = .next t) ∨
          ∃ level, op = .rst level ∧ t = s.driveRst level := by
  cases op with
  | write width off v =>
    rcases atPort_cases h with ⟨-, rfl⟩ | ⟨hr, h⟩
    · exact .inl ⟨s.pending, none, s.draws, le_refl _, rfl⟩
    rcases busWrite_cases h with ⟨-, rfl⟩ | ⟨ha, hw⟩
    · exact .inl ⟨s.pending, _, s.draws, le_refl _, rfl⟩
    · exact .inr (.inl ⟨width, off, v, rfl, hr, ha, hw⟩)
  | read width off =>
    rcases atPort_cases h with ⟨-, rfl⟩ | ⟨-, h⟩
    · exact .inl ⟨s.pending, none, s.draws, le_refl _, rfl⟩
    obtain ⟨a, d, hd, rfl⟩ := busRead_cases h
    exact .inl ⟨s.pending, _, d, hd, rfl⟩
  | wait off mask want =>
    rcases atPort_cases h with ⟨-, rfl⟩ | ⟨-, h⟩
    · exact .inl ⟨s.pending, none, s.draws, le_refl _, rfl⟩
    obtain ⟨p, a, d, hd, rfl⟩ := busWait_cases h
    exact .inl ⟨p, _, d, hd, rfl⟩
  | rst level =>
    cases h
    exact .inr (.inr ⟨level, rfl, rfl⟩)

end Sys2Proof.Machine
end

