-- ==== Sys2Proof/Laws/Memory.lean ====
section
/-! SUPPORT. MSGBUF: every write keeps the canonical form, a read after a write to the same index
gives the value written, and a write leaves every other index alone. -/

namespace Sys2Proof.Machine

theorem mem_cellsPut {a : Nat} {v : Byte} {c : Host.Cell} (l : List Host.Cell)
    (h : c ∈ cellsPut a v l) : c = (a, v) ∨ c ∈ l := by
  induction l with
  | nil => simpa [cellsPut] using h
  | cons d l ih =>
    simp only [cellsPut] at h
    split at h
    · simpa using h
    split at h
    · rcases List.mem_cons.mp h with h | h
      · exact .inl h
      · exact .inr (List.mem_cons_of_mem d h)
    · rcases List.mem_cons.mp h with h | h
      · exact .inr (by simp [h])
      · exact (ih h).imp id (List.mem_cons_of_mem d)

theorem cellsPut_sorted (a : Nat) (v : Byte) (l : List Host.Cell)
    (h : l.Pairwise fun c d => c.1 < d.1) : (cellsPut a v l).Pairwise fun c d => c.1 < d.1 := by
  induction l with
  | nil => simp [cellsPut]
  | cons d l ih =>
    obtain ⟨hd, hl⟩ := List.pairwise_cons.mp h
    simp only [cellsPut]
    split
    · rename_i hlt
      refine List.pairwise_cons.mpr ⟨fun c hc => ?_, h⟩
      rcases List.mem_cons.mp hc with rfl | hc
      · exact hlt
      · exact Nat.lt_trans hlt (hd c hc)
    split
    · rename_i heq
      exact List.pairwise_cons.mpr ⟨fun c hc => heq ▸ hd c hc, hl⟩
    · refine List.pairwise_cons.mpr ⟨fun c hc => ?_, ih hl⟩
      rcases mem_cellsPut l hc with rfl | hc
      · simp only; omega
      · exact hd c hc

theorem find_cellsPut_same (a : Nat) (v : Byte) (l : List Host.Cell) :
    (cellsPut a v l).find? (fun c => c.1 == a) = some (a, v) := by
  induction l with
  | nil => simp [cellsPut]
  | cons d l ih =>
    simp only [cellsPut]
    split
    · simp
    split
    · simp
    · rename_i h
      rw [List.find?_cons_of_neg (by simpa using Ne.symm h), ih]

theorem find_cellsPut_other {a b : Nat} (hab : b ≠ a) (v : Byte) (l : List Host.Cell) :
    (cellsPut a v l).find? (fun c => c.1 == b) = l.find? (fun c => c.1 == b) := by
  induction l with
  | nil => simp [cellsPut, hab.symm]
  | cons d l ih =>
    simp only [cellsPut]
    split
    · rw [List.find?_cons_of_neg (by simpa using hab.symm)]
    split
    · rename_i h
      rw [List.find?_cons_of_neg (by simpa using hab.symm),
        List.find?_cons_of_neg (by simpa [← h] using hab.symm)]
    · simp only [List.find?_cons, ih]

theorem Memory.write_wf {m : Memory} (h : m.wf) (a : Nat) (v : Byte) : (m.write a v).wf :=
  cellsPut_sorted a v m.cells h

theorem Memory.writeBytes_wf {m : Memory} (h : m.wf) (a : Nat) (B : List Byte) :
    (m.writeBytes a B).wf := by
  induction B generalizing m a with
  | nil => exact h
  | cons v B ih => exact ih (Memory.write_wf h a v) (a + 1)

theorem Memory.reset_wf (epoch : Nat) : Memory.wf ⟨epoch, []⟩ := List.Pairwise.nil

theorem Memory.read_write_same (m : Memory) (a : Nat) (v : Byte) : (m.write a v).read a = v := by
  simp [Memory.read, Memory.written, Memory.write, find_cellsPut_same]

theorem Memory.read_write_other {a b : Nat} (hab : b ≠ a) (m : Memory) (v : Byte) :
    (m.write a v).read b = m.read b := by
  simp [Memory.read, Memory.written, Memory.write, find_cellsPut_other hab]

theorem Memory.read_writeBytes_outside (m : Memory) (a b : Nat) (B : List Byte)
    (h : b < a ∨ a + B.length ≤ b) : (m.writeBytes a B).read b = m.read b := by
  induction B generalizing m a with
  | nil => rfl
  | cons v B ih =>
    simp only [List.length_cons] at h
    rw [Memory.writeBytes, ih _ _ (by omega), Memory.read_write_other (by omega)]

theorem Memory.read_writeBytes_inside (m : Memory) (a k : Nat) (B : List Byte) (h : k < B.length) :
    (m.writeBytes a B).read (a + k) = B[k] := by
  induction B generalizing m a k with
  | nil => simp at h
  | cons v B ih =>
    cases k with
    | zero =>
      rw [Memory.writeBytes, Memory.read_writeBytes_outside _ _ _ _ (by omega)]
      simpa using Memory.read_write_same m a v
    | succ k =>
      have := ih (m.write a v) (a + 1) k (by simpa using h)
      rw [Memory.writeBytes, show a + (k + 1) = a + 1 + k by omega, this]
      rfl

/-- Every listed index of a written memory was listed before or is one of those written. -/
theorem Memory.mem_writeBytes {m : Memory} {c : Host.Cell} (a : Nat) (B : List Byte)
    (h : c ∈ (m.writeBytes a B).cells) : c ∈ m.cells ∨ a ≤ c.1 ∧ c.1 < a + B.length := by
  induction B generalizing m a with
  | nil => exact .inl h
  | cons v B ih =>
    rcases ih (a + 1) h with h | h
    · rcases mem_cellsPut _ h with rfl | h
      · exact .inr (by simp)
      · exact .inl h
    · exact .inr (by simp only [List.length_cons]; omega)

end Sys2Proof.Machine
end

