-- ==== Sys2Proof/Laws/PerInstr.lean ====
section
/-! SUPPORT. Facts about every operation as syntax, one lemma for each constructor. -/

namespace Sys2Proof.Laws.TableRow

/-- The number a code is, as spec/opcode_table.json numbers its bits. -/
def codeValue : Code → Nat
  | .cmd w => w.toNat
  | .phase p => p.toNat
  | .round j => j.toNat

/-- The mask and the match of the operation's row of spec/opcode_table.json. -/
def row : Instr → Nat × Nat
  | .nop => (0xFFFFFFFF, 0x00000000)
  | .start _ _ => (0xFFFFE0FF, 0x00000001)
  | .clear => (0xFFFFFFFF, 0x00000002)
  | .check => (0xF, 0x1)
  | .pad => (0xF, 0x2)
  | .cubesum => (0xF, 0x3)
  | .henongen => (0xF, 0x4)
  | .compress => (0xF, 0x5)
  | .chaos => (0xF, 0x6)
  | .henonmix => (0xF, 0x7)
  | .finalSub => (0xF, 0x8)
  | .output => (0xF, 0x9)
  | .roundF _ => (0x30, 0x00)
  | .roundG _ => (0x30, 0x10)
  | .roundH _ => (0x30, 0x20)
  | .roundI _ => (0x30, 0x30)

/-- The code of a well-formed operation matches the operation's row of the table. -/
def Statement (i : Instr) : Prop :=
  i.wf = true → codeValue (encode i) &&& (row i).1 = (row i).2

theorem nop : Statement .nop := by intro _; rfl

theorem start (opts : BitVec 4) (hexin : Bool) : Statement (.start opts hexin) := by
  unfold Statement
  revert opts hexin
  decide

theorem clear : Statement .clear := by intro _; rfl

theorem check : Statement .check := by intro _; rfl

theorem pad : Statement .pad := by intro _; rfl

theorem cubesum : Statement .cubesum := by intro _; rfl

theorem henongen : Statement .henongen := by intro _; rfl

theorem compress : Statement .compress := by intro _; rfl

theorem chaos : Statement .chaos := by intro _; rfl

theorem henonmix : Statement .henonmix := by intro _; rfl

theorem finalSub : Statement .finalSub := by intro _; rfl

theorem output : Statement .output := by intro _; rfl

theorem roundF (j : BitVec 6) : Statement (.roundF j) := by
  unfold Statement
  revert j
  decide

theorem roundG (j : BitVec 6) : Statement (.roundG j) := by
  unfold Statement
  revert j
  decide

theorem roundH (j : BitVec 6) : Statement (.roundH j) := by
  unfold Statement
  revert j
  decide

theorem roundI (j : BitVec 6) : Statement (.roundI j) := by
  unfold Statement
  revert j
  decide

end Sys2Proof.Laws.TableRow
end

