-- ==== Sys2Proof/Laws/Step.lean ====
section
/-! SUPPORT. What one step can do, said once. -/

namespace Sys2Proof.Machine

/-- Every case of a step that answers a next state. -/
theorem step_cases {s t : State} (h : step s = .next t) :
    (∃ op rest, s.turn = .host op rest ∧ hostEvent op (s.hostGoes rest) = .next t) ∨
      (∃ i, s.turn = .sequencer ∧ decodePhase s.phase = .ok i ∧ exec i s.sequencerGoes = .next t) ∨
        (∃ j, s.turn = .round j ∧ exec (decodeRound j) (s.roundGoes j) = .next t) ∨
          (s.turn = .tail ∧ t = s.compressTail) ∨ (s.turn = .idle ∧ t = s) := by
  unfold step State.event at h
  split at h
  · rename_i op rest ht
    exact .inl ⟨op, rest, ht, h⟩
  · rename_i ht
    unfold State.sequencerStep at h
    split at h
    · rename_i i hi
      exact .inr (.inl ⟨i, ht, hi, h⟩)
    all_goals cases h
  · rename_i j ht
    exact .inr (.inr (.inl ⟨j, ht, h⟩))
  · rename_i ht
    cases h
    exact .inr (.inr (.inr (.inl ⟨ht, rfl⟩)))
  · rename_i ht
    cases h
    exact .inr (.inr (.inr (.inr ⟨ht, rfl⟩)))

theorem running_iff (s : State) : s.running = true ↔ s.busy = true ∧ s.rst = false := by
  simp [State.running]

/-- When the sequencer's turn comes. -/
theorem turn_sequencer_iff {s : State} :
    s.turn = .sequencer ↔ s.inner = .outside ∧ s.running = true ∧ (s.pending = [] ∨ s.gap = 0) := by
  cases hi : s.inner <;> cases hp : s.pending <;> by_cases hr : s.running <;>
    by_cases hg : s.gap = 0 <;> simp [State.turn, hi, hp, hr, hg]

/-- When a host event's turn comes. -/
theorem turn_host_iff {s : State} {op : HostOp} {rest : List HostOp} :
    s.turn = .host op rest ↔
      s.inner = .outside ∧ s.pending = op :: rest ∧ (s.running = true → s.gap ≠ 0) := by
  cases hi : s.inner <;> cases hp : s.pending <;> by_cases hr : s.running <;>
    by_cases hg : s.gap = 0 <;> simp [State.turn, hi, hp, hr, hg]

theorem turn_round_iff {s : State} {j : BitVec 6} : s.turn = .round j ↔ s.inner = .round j := by
  cases hi : s.inner <;> cases hp : s.pending <;> by_cases hr : s.running <;>
    by_cases hg : s.gap = 0 <;> simp [State.turn, hi, hp, hr, hg]

theorem turn_tail_iff {s : State} : s.turn = .tail ↔ s.inner = .tail := by
  cases hi : s.inner <;> cases hp : s.pending <;> by_cases hr : s.running <;>
    by_cases hg : s.gap = 0 <;> simp [State.turn, hi, hp, hr, hg]

/-- The phases a sequencer step performs, by code. -/
theorem decodePhase_cases {p : BitVec 4} {i : Instr} (h : decodePhase p = .ok i) :
    (p = 1#4 ∧ i = .check) ∨ (p = 2#4 ∧ i = .pad) ∨ (p = 3#4 ∧ i = .cubesum) ∨
      (p = 4#4 ∧ i = .henongen) ∨ (p = 5#4 ∧ i = .compress) ∨ (p = 6#4 ∧ i = .chaos) ∨
        (p = 7#4 ∧ i = .henonmix) ∨ (p = 8#4 ∧ i = .finalSub) ∨ (p = 9#4 ∧ i = .output) := by
  have hp : ∀ n : Nat, p.toNat = n → p = BitVec.ofNat 4 n := by
    intro n hn
    rw [← hn, BitVec.ofNat_toNat, BitVec.setWidth_eq]
  unfold decodePhase at h
  split at h
  case h_1 => cases h
  case h_11 => cases h
  all_goals
    rename_i hn
    injection h with h
    subst h
    simp [hp _ hn]

end Sys2Proof.Machine
end

