-- ==== Sys2Proof/Tests/Slice0.lean ====
section
/-! SUPPORT. Tests: the well-formedness checks, decoding of words written out from the spec, the
vectors of spec/95_test_vectors.md, one step of each operation, and for each statement with
hypotheses a state and operands that meet them. Expected values come from the spec's vectors and
rules, or by hand from them. -/

namespace Sys2Proof.Tests

open Sys2Proof.Machine

/-! ### Helpers -/

/-- The reset state of an engine built with the reference configuration. -/
def rc0 : State := State.resetWith Config.rc

/-- The ASCII codes of "abc". -/
def abc : List Byte := [0x61#8, 0x62#8, 0x63#8]

/-- A MSGBUF that holds the bytes of a message from index 0. -/
def bufferOf (B : List Byte) : Memory := (⟨0, []⟩ : Memory).writeBytes 0 B

/-- A message loaded, a run started with the given selector and input mode, CHECK pending. -/
def atCheck (B : List Byte) (opts : BitVec 4) (hexin : Bool) : State :=
  { rc0 with
    msgbuf := bufferOf B
    msgLen := BitVec.ofNat 32 B.length
    opts := opts
    hexin := hexin
    busy := true
    phase := 1#4 }

/-- A run at the given phase, with the work stream W and its number of blocks. -/
def atPhase (p : BitVec 4) (opts : BitVec 4) (W : List Byte) (total : Word) : State :=
  { rc0 with busy := true, phase := p, opts := opts, work := W, blockTotal := total }

/-- The state with one event pending for the host, which goes next. -/
def withOp (s : State) (op : HostOp) : State := { s with pending := [op], gap := 1 }

/-- The outcome is a next state of which `p` holds. -/
def nextIs (o : Host.Outcome State Fault Refusal) (p : State → Bool) : Bool :=
  match o with
  | .next t => p t
  | .fault _ => false
  | .refused _ => false

/-- The outcome is this fault. -/
def faultIs (o : Host.Outcome State Fault Refusal) (f : Fault) : Bool :=
  match o with
  | .next _ => false
  | .fault g => g == f
  | .refused _ => false

/-! ### Well-formedness: an ill-formed term for each check, and the ends of each range (R87) -/

theorem test_wf_round_f : (Instr.roundF 15#6).wf = true ∧ (Instr.roundF 16#6).wf = false := by decide

theorem test_wf_round_g :
    (Instr.roundG 16#6).wf = true ∧ (Instr.roundG 15#6).wf = false ∧ (Instr.roundG 32#6).wf = false := by
  decide

theorem test_wf_round_h :
    (Instr.roundH 47#6).wf = true ∧ (Instr.roundH 31#6).wf = false ∧ (Instr.roundH 48#6).wf = false := by
  decide

theorem test_wf_round_i : (Instr.roundI 48#6).wf = true ∧ (Instr.roundI 47#6).wf = false := by decide

theorem test_wf_start : (Instr.start 15#4 true).wf = true := by decide

/-! ### Decoding: words written out field by field from R81, R82, R86 and R87 -/

/-- reserved 19 bits, HEXIN, OPTS, OPCODE 0x00. -/
theorem test_decode_nop : decodeCmd 0b0000000000000000000_0_0000_00000000#32 = .ok .nop := by decide

/-- HEXIN 1, OPTS 0101, OPCODE 0x01. -/
theorem test_decode_start :
    decodeCmd 0b0000000000000000000_1_0101_00000001#32 = .ok (.start 0b0101#4 true) := by decide

/-- OPCODE 0x02. -/
theorem test_decode_clear : decodeCmd 0b0000000000000000000_0_0000_00000010#32 = .ok .clear := by decide

/-- V34: the words that are ILLEGAL. -/
theorem test_decode_illegal :
    decodeCmd 0x00000003#32 = .error (.illegalCommand 0x00000003#32) ∧
      decodeCmd 0x00002001#32 = .error (.illegalCommand 0x00002001#32) ∧
        decodeCmd 0x00000100#32 = .error (.illegalCommand 0x00000100#32) ∧
          decodeCmd 0x00001002#32 = .error (.illegalCommand 0x00001002#32) ∧
            decodeCmd 0x80000001#32 = .error (.illegalCommand 0x80000001#32) ∧
              decodeCmd 0xFFFFFFFF#32 = .error (.illegalCommand 0xFFFFFFFF#32) :=
  ⟨by decide, by decide, by decide, by decide, by decide, by decide⟩

/-- R86, code by code. -/
theorem test_decode_phases :
    decodePhase 0b0001#4 = .ok .check ∧ decodePhase 0b0010#4 = .ok .pad ∧
      decodePhase 0b0011#4 = .ok .cubesum ∧ decodePhase 0b0100#4 = .ok .henongen ∧
        decodePhase 0b0101#4 = .ok .compress ∧ decodePhase 0b0110#4 = .ok .chaos ∧
          decodePhase 0b0111#4 = .ok .henonmix ∧ decodePhase 0b1000#4 = .ok .finalSub ∧
            decodePhase 0b1001#4 = .ok .output := by decide

/-- R86: IDLE names no step, and 10 to 15 are reserved. -/
theorem test_decode_no_phase :
    decodePhase 0b0000#4 = .error .idlePhase ∧ decodePhase 0b1010#4 = .error (.reservedPhase 10#4) ∧
      decodePhase 0b1111#4 = .error (.reservedPhase 15#4) := by decide

/-- R87: bits 5:4 select the operation. -/
theorem test_decode_rounds :
    decodeRound 0b00_1111#6 = .roundF 15#6 ∧ decodeRound 0b01_0000#6 = .roundG 16#6 ∧
      decodeRound 0b10_0001#6 = .roundH 33#6 ∧ decodeRound 0b11_1111#6 = .roundI 63#6 := by decide

theorem test_decode_table_word :
    decodeTableWord 32 0x00001F01 = some (.start 15#4 true) ∧ decodeTableWord 8 0x05 = some .compress ∧
      decodeTableWord 8 0x30 = some (.roundI 48#6) ∧ decodeTableWord 8 0x00 = some (.roundF 0#6) ∧
        decodeTableWord 32 0x00002001 = none := by decide

/-! ### The codec and the padding (V3 to V7) -/

theorem test_rotl :
    rotl 0x80000001#32 7 = 0x000000c0#32 ∧ rotl 0x12345678#32 7 = 0x1a2b3c09#32 ∧
      rotl 0xd76aa4f7#32 7 = 0xb5527beb#32 ∧ rotl 0x00000001#32 31 = 0x80000000#32 := by decide

theorem test_hexdecode :
    hexdecode [0x30#8, 0x41#8, 0x30#8, 0x62#8] = [0x0a#8, 0x0b#8] ∧ hexdecode [] = [] := by decide

theorem test_hexrender : hexRender 0x0a#8 = [0x30#8, 0x61#8] ∧ hexRender 0xff#8 = [0x66#8, 0x66#8] := by
  decide

theorem test_pad_lengths :
    padZeros 0 = 55 ∧ padZeros 55 = 0 ∧ padZeros 56 = 63 ∧ padZeros 119 = 0 ∧ padZeros 120 = 63 := by decide

theorem test_pad_abc :
    padMessage abc = abc ++ [0x80#8] ++ List.replicate 52 0#8 ++ [0x18#8] ++ List.replicate 7 0#8 ∧
      blockWord (padMessage abc) 0 = 0x80636261#32 ∧ blockWord (padMessage abc) 14 = 0x18#32 := by decide

/-! ### The stages' arithmetic (V9 to V25) -/

/-- V9 through the update of R122 with `a = 0`, `T[0]` and a zero block: by hand,
`b + rotl(f + T[0], 7)` with f = 0x1ffddff1. -/
theorem test_round_function_f :
    (roundOpF 0#6 (List.replicate 64 0#8) ⟨0#32, 0x12345678#32, 0x9abcdef0#32, 0x0fedcba9#32⟩).b =
      0x12345678#32 + rotl (0x1ffddff1#32 + 0xd76aa478#32) 7 := by decide

theorem test_round_function_g :
    (roundOpG 16#6 (List.replicate 64 0#8) ⟨0#32, 0x12345678#32, 0x9abcdef0#32, 0x0fedcba9#32⟩).b =
      0x12345678#32 + rotl (0x92345678#32 + 0xf61e2562#32) 7 := by decide

theorem test_round_function_h :
    (roundOpH 32#6 (List.replicate 64 0#8) ⟨0#32, 0x12345678#32, 0x9abcdef0#32, 0x0fedcba9#32⟩).b =
      0x12345678#32 + rotl (0x87654321#32 + 0xfffa3942#32) 7 := by decide

theorem test_round_function_i :
    (roundOpI 63#6 (List.replicate 64 0#8) ⟨0#32, 0x12345678#32, 0x9abcdef0#32, 0x0fedcba9#32⟩).b =
      0x12345678#32 + rotl (0x688aa88e#32 + 0xeb86d391#32) 7 := by decide

/-- V11, pad(""). -/
theorem test_compress_empty :
    compressBlock (padMessage []) iv = ⟨0xba20e2ad#32, 0x08050461#32, 0xff71f408#32, 0x109b213a#32⟩ := by
  decide +kernel

/-- V11, pad("abc"). -/
theorem test_compress_abc :
    compressBlock (padMessage abc) iv = ⟨0x048250cd#32, 0x9b0a84b5#32, 0xa1b152cb#32, 0x35e03670#32⟩ := by
  decide +kernel

/-- V12. -/
theorem test_serialisation :
    ser .keepLow 4 1 = [0#8, 0#8, 0#8, 1#8] ∧ ser .keepHigh 2 0 = [0#8, 0#8] ∧
      ser .keepLow 4 0x010102030405 = [2#8, 3#8, 4#8, 5#8] ∧
        ser .keepHigh 4 0x010102030405 = [1#8, 1#8, 2#8, 3#8] := by decide +kernel

/-- V13. -/
theorem test_cube_sum :
    cubeSum [List.replicate 63 0#8 ++ [1#8], List.replicate 63 0#8 ++ [2#8],
      List.replicate 63 0#8 ++ [3#8]] = 36 := by decide +kernel

/-- V15: R_0 and the head of F for pad(""). -/
theorem test_mixer_empty :
    slice (cubicMix .keepLow (padMessage [])) 0 64 = List.replicate 64 0#8 ∧
      slice (cubicMix .keepHigh (padMessage [])) 0 64 = 0x20#8 :: List.replicate 63 0#8 ∧
        slice (cubicMix .keepLow (padMessage [])) 64 66 = [0x60#8, 0#8] := by decide +kernel

/-- R158: seed, rate and the first row of CT for pad(""). -/
theorem test_chaos_table :
    chaosSeed (padMessage []) = 0x3FE1765FD8ADAB9F#64 ∧ chaosRate (padMessage []) = 0x400E2D0E56041893#64 ∧
      chaosCells (padMessage []) 8 =
        [0xef#8, 0x3a#8, 0xaa#8, 0xd6#8, 0x82#8, 0xf1#8, 0x34#8, 0x9c#8] := by decide +kernel

/-- V16: the extreme block. -/
theorem test_chaos_extreme :
    chaosSeed (List.replicate 64 0xff#8) = 0x3FDA9A027525460A#64 ∧
      chaosCells (List.replicate 64 0xff#8) 4 = [0xe2#8, 0x5e#8, 0xd9#8, 0x77#8] := by decide +kernel

/-- V18. -/
theorem test_henon_array :
    henonCells (f64Dec 14 1) (f64Dec 3 1) (f64Dec 1000 0) =
      [14#4, 2#4, 1#4, 13#4, 0#4, 11#4, 12#4, 4#4] ++ [14#4, 2#4, 10#4, 9#4, 6#4, 0#4, 8#4, 9#4] ++
        [1#4, 11#4, 2#4, 14#4, 12#4, 4#4, 15#4, 1#4] ++ [7#4, 0#4, 14#4, 13#4, 9#4, 14#4, 2#4, 15#4] := by
  decide +kernel

/-- V19, the last row, with the array of V18. -/
theorem test_henon_mix :
    henonState
        ⟨([14, 2, 1, 13, 0, 11, 12, 4] ++ [14, 2, 10, 9, 6, 0, 8, 9] ++ [1, 11, 2, 14, 12, 4, 15, 1] ++
          [7, 0, 14, 13, 9, 14, 2, 15] : List (BitVec 4)).toArray, rfl⟩
        ⟨0x12345678#32, 0x12345678#32, 0x12345678#32, 0x12345678#32⟩ =
      ⟨0xe4340240#32, 0xe4e4e088#32, 0x1668c898#32, 0x70a4d4e8#32⟩ := by decide +kernel

/-- V21. -/
theorem test_final_table :
    finalEntry Config.rc.finalSbox 0x00#8 = 0x63#8 ∧ finalEntry Config.rc.finalSbox 0x03#8 = 0x7b#8 ∧
      finalEntry Config.rc.finalSbox 0xad#8 = 0x95#8 ∧
        finalEntry Config.rc.finalSbox 0xff#8 = 0x16#8 := by decide +kernel

/-- V23. -/
theorem test_digest_hex :
    digestHexWord ⟨0xba20e2ad#32, 0x08050461#32, 0xff71f408#32, 0x109b213a#32⟩ 0 = 0x32656461#32 ∧
      digestHexWord ⟨0xba20e2ad#32, 0x08050461#32, 0xff71f408#32, 0x109b213a#32⟩ 7 = 0x30316239#32 := by
  decide

/-- V22: the pre-digest of "" through the reference table. -/
theorem test_final_empty :
    finalBytes Config.rc.finalSbox ⟨0xba20e2ad#32, 0x08050461#32, 0xff71f408#32, 0x109b213a#32⟩ =
      [0x95#8, 0x98#8, 0xb7#8, 0xf4#8, 0xef#8, 0xf2#8, 0x6b#8, 0x30#8] ++
        [0x30#8, 0xbf#8, 0xa3#8, 0x16#8, 0x80#8, 0xfd#8, 0x14#8, 0xca#8] := by decide +kernel

/-- V29, the hex form of the bytes 0a 0b. -/
theorem test_message_hex :
    (atCheck [0x30#8, 0x41#8, 0x30#8, 0x42#8] 0#4 true).message = [0x0a#8, 0x0b#8] := by decide +kernel

/-! ### One step of each operation -/

/-- R191. -/
theorem test_nop : exec .nop (atCheck abc 5#4 true) = .next (atCheck abc 5#4 true) := rfl

/-- V35: just after `CMD START opts=0xF, hex`. -/
theorem test_start :
    nextIs (step (withOp rc0 (.write .w32 0x000#32 0x00001F01#32)))
      (fun t => t.statusWord == 0x0001F101#32 && t.answer == some .okay) = true := by decide

/-- V34: a START while busy raises BUSY with the word, and BUSY is the recorded error. -/
theorem test_start_busy :
    nextIs (step (withOp (atCheck abc 0#4 false) (.write .w32 0x000#32 0x00000801#32)))
      (fun t => t.statusWord == 0x00000135#32 && t.errinfo == 0x00000801#32) = true := by decide

/-- P6: CLEAR abandons a run and keeps MSG_LEN. -/
theorem test_clear :
    nextIs (step (withOp (atCheck abc 7#4 false) (.write .w32 0x000#32 0x00000002#32)))
      (fun t => t.statusWord == 0#32 && t.msgLen == 3#32 && t.hs == iv && t.msgbuf.read 2 == 0x63#8) =
        true := by decide +kernel

/-- P4 and V35: the odd length in hex mode; V3: the lowest character that is no digit, the space of
"12 4"; V35: the LENGTH end. -/
theorem test_check_errors :
    nextIs (step (atCheck abc 1#4 true))
        (fun t => t.statusWord == 0x00011014#32 && t.errinfo == 3#32) = true ∧
      nextIs (step (atCheck [0x31#8, 0x32#8, 0x20#8, 0x34#8] 0#4 true))
          (fun t => t.errcode == 1#4 && t.errinfo == 2#32 && !t.busy) = true ∧
        nextIs (step { atCheck [] 0#4 false with msgLen := 4097#32 })
          (fun t => t.statusWord == 0x00000024#32 && t.errinfo == 4097#32) = true :=
  ⟨by decide +kernel, by decide +kernel, by decide +kernel⟩

/-- R99 and R40: `seq <- (PAD, 0)` writes 0 to BLOCK_CNT, whatever an earlier run left there. -/
theorem test_check_passes :
    nextIs (step { atCheck [0x30#8, 0x41#8] 0#4 true with blockCnt := 7#32, blockTotal := 7#32 })
      (fun t => t.seqPosition == (2#4, 0#32) && t.blockCnt == 0#32 && !t.err && t.busy) = true := by
  decide

/-- R106: WORK, RUN_N, HS and BLOCK_TOTAL after PAD with Option 1 (V14: 4 blocks for L = 64). -/
theorem test_pad :
    nextIs (exec .pad (atCheck abc 1#4 false))
      (fun t => t.work == padMessage abc && t.runN == 3#32 && t.hs == iv && t.blockTotal == 4#32 &&
        t.phase == 3#4) = true := by decide +kernel

/-- V14: |W| = 256 for L = 64; R197: COMPRESS is next without Option 3. -/
theorem test_cubesum :
    nextIs (exec .cubesum (atPhase 3#4 1#4 (padMessage []) 4#32))
      (fun t => t.work.length == 256 && t.phase == 5#4 && t.blockCnt == 0#32) = true := by decide +kernel

/-- R169. -/
theorem test_henongen :
    nextIs (exec .henongen (atPhase 4#4 4#4 (padMessage []) 1#32))
      (fun t => t.phase == 5#4 && t.hs == iv && t.blockCnt == 0#32) = true := by decide

/-- R124 and R198: the last block of a run without options 2 to 4 ends at OUTPUT. -/
theorem test_compress :
    nextIs (exec .compress (atPhase 5#4 0#4 (padMessage []) 1#32))
      (fun t => t.hs == ⟨0xba20e2ad#32, 0x08050461#32, 0xff71f408#32, 0x109b213a#32⟩ && t.sv == iv &&
        t.phase == 9#4 && t.blockCnt == 1#32) = true := by decide +kernel

/-- R154 and R197: CHAOS before HENONMIX leaves the block open. -/
theorem test_chaos :
    nextIs (exec .chaos (atPhase 6#4 6#4 (padMessage []) 1#32))
      (fun t => t.phase == 7#4 && t.blockCnt == 0#32) = true := by decide

/-- V17: csub by hand through the identity table. -/
theorem test_chaos_sub :
    chaosSub ⟨((List.range 256).map (BitVec.ofNat 8)).toArray, by simp⟩ 0x0123abcd#32 = 0x0123abcd#32 := by
  decide +kernel

/-- R170: a zero array gives zero words; R198: the block ends and another follows. -/
theorem test_henonmix :
    nextIs (exec .henonmix (atPhase 7#4 4#4 (padMessage []) 2#32))
      (fun t => t.hs == ⟨0#32, 0#32, 0#32, 0#32⟩ && t.phase == 5#4 && t.blockCnt == 1#32) = true := by
  decide

/-- R182: byte 0 of IV's pre-digest is 0x01, whose entry is 0x7c (V21). -/
theorem test_final :
    nextIs (exec .finalSub (atPhase 8#4 8#4 (padMessage []) 1#32))
      (fun t => t.dg[0] == 0x7c#8 && t.hs == iv && t.phase == 9#4) = true := by decide +kernel

/-- R183 and V35: the end of a run with s = 0. -/
theorem test_output :
    nextIs (step (atPhase 9#4 0#4 (padMessage []) 1#32))
      (fun t => t.statusWord == 0x00000002#32 && t.digest == iv) = true := by decide

/-- R183: with Option 4 the digest comes from DG. -/
theorem test_output_final :
    nextIs (exec .output { atPhase 9#4 8#4 [] 1#32 with dg := Vector.replicate 16 0x5a#8 })
      (fun t => t.digest == ⟨0x5a5a5a5a#32, 0x5a5a5a5a#32, 0x5a5a5a5a#32, 0x5a5a5a5a#32⟩) = true := by
  decide

/-- V5: round 0 of pad("") makes rotl(0xd76aa4f7, 7) = 0xb5527beb; its b is IV's b plus that. -/
theorem test_round_f :
    nextIs (exec (.roundF 0#6) (atPhase 5#4 0#4 (padMessage []) 1#32))
      (fun t => t.hs == ⟨0x10325476#32, 0xEFCDAB89#32 + 0xb5527beb#32, 0xEFCDAB89#32, 0x98BADCFE#32⟩) =
        true := by decide +kernel

/-- R119, R122: round 16 on a zero state and a block whose word 1 is 1: b = rotl(T[16] + 1, 7). -/
theorem test_round_g :
    nextIs (exec (.roundG 16#6)
      { atPhase 5#4 0#4 (List.replicate 4 0#8 ++ [1#8] ++ List.replicate 59 0#8) 1#32 with
        hs := ⟨0#32, 0#32, 0#32, 0#32⟩ })
      (fun t => t.hs == ⟨0#32, rotl 0xf61e2563#32 7, 0#32, 0#32⟩) = true := by decide +kernel

/-- R120, R122: round 32 on a zero state and a block whose word 5 is 1: b = rotl(T[32] + 1, 7). -/
theorem test_round_h :
    nextIs (exec (.roundH 32#6)
      { atPhase 5#4 0#4 (List.replicate 20 0#8 ++ [1#8] ++ List.replicate 43 0#8) 1#32 with
        hs := ⟨0#32, 0#32, 0#32, 0#32⟩ })
      (fun t => t.hs == ⟨0#32, rotl 0xfffa3943#32 7, 0#32, 0#32⟩) = true := by decide +kernel

/-- R121, R122: round 49 on a zero state, where f is all ones, and a block whose word 7 is 2:
b = rotl(T[49] + 1, 7), with T[49] = 0x432aff97. -/
theorem test_round_i :
    nextIs (exec (.roundI 49#6)
      { atPhase 5#4 0#4 (List.replicate 28 0#8 ++ [2#8] ++ List.replicate 35 0#8) 1#32 with
        hs := ⟨0#32, 0#32, 0#32, 0#32⟩ })
      (fun t => t.hs == ⟨0#32, rotl 0x432aff98#32 7, 0#32, 0#32⟩) = true := by decide +kernel

/-! ### The bus -/

/-- R65: the first byte of MSGBUF is the least significant one. -/
theorem test_msgbuf_write :
    nextIs (step (withOp rc0 (.write .w32 0x1004#32 0x04030201#32)))
      (fun t => t.msgbuf.read 4 == 1#8 && t.msgbuf.read 7 == 4#8) = true := by decide

/-- V35 and P5: BUSY_WRITE to MSG_LEN is recorded with its offset. -/
theorem test_busy_write :
    nextIs (step (withOp (atCheck abc 0#4 false) (.write .w32 0x008#32 0x5#32)))
      (fun t => t.errcode == 5#4 && t.errinfo == 0x008#32 && t.msgLen == 3#32 && t.busy) = true := by decide

/-- R63: a narrow write has no effect and is answered ERROR. -/
theorem test_narrow_write :
    nextIs (step (withOp rc0 (.write .w8 0x008#32 0x5#32)))
      (fun t => t.msgLen == 0#32 && t.answer == some .error) = true := by decide

/-- R30: CAPS reads MSG_BUF_BYTES. -/
theorem test_caps :
    nextIs (step (withOp rc0 (.read .w32 0x014#32))) (fun t => t.answer == some (.okayData 4096#32)) =
      true := by decide

/-- R20: with ADDR_BITS = 16 the offset 0x10000 is outside the window. -/
theorem test_outside_window :
    faultIs (step (withOp rc0 (.read .w32 0x10000#32))) (.outsideWindow 0x10000#32) = true := by decide

/-- R245: a START written while the reset input is asserted is not answered and starts nothing; after
the release a read sees the reset state. -/
theorem test_reset_held :
    nextIs (step (withOp (atCheck abc 0#4 false) (.rst true)))
        (fun t => t.rst && t.statusWord == 0#32 && t.msgLen == 0#32 && t.hs == iv) = true ∧
      nextIs (step (withOp { rc0 with rst := true } (.write .w32 0x000#32 0x00000001#32)))
          (fun t => t.statusWord == 0#32 && t.answer == none) = true ∧
        nextIs (step (withOp { rc0 with rst := true } (.rst false)))
          (fun t => !t.rst && t.statusWord == 0#32) = true := ⟨by decide, by decide, by decide⟩

/-- P3: writing DONE_IE = 1 while DONE is set raises the interrupt line. -/
theorem test_irq_enable :
    nextIs (step (withOp { rc0 with done := true } (.write .w32 0x00C#32 0x1#32))) (fun t => t.irq) =
      true := by decide

/-- R88: a WAIT that reads its value is over, and one that does not stays pending. -/
theorem test_wait :
    nextIs (step (withOp rc0 (.wait 0x004#32 0x1#32 0x0#32))) (fun t => t.pending == []) = true ∧
      nextIs (step (withOp (atCheck abc 0#4 false) (.wait 0x004#32 0x1#32 0x0#32)))
        (fun t => t.pending == [.wait 0x004#32 0x1#32 0x0#32]) = true := by decide

/-- P2: LOADHEX "616263". -/
theorem test_load_hex :
    hostLoadHex "616263" =
      [.write .w32 0x1000#32 0x32363136#32, .write .w32 0x1004#32 0x00003336#32,
        .write .w32 0x008#32 0x6#32] := by decide

/-! ### The hypotheses of the statements can be met -/

/-- A next state that `p` holds of. -/
theorem exists_of_nextIs {o : Host.Outcome State Fault Refusal} {p : State → Bool}
    (h : nextIs o p = true) : ∃ t, o = .next t ∧ p t = true := by
  cases o with
  | next t => exact ⟨t, rfl, h⟩
  | fault f => cases h
  | refused r => cases h

/-- A host event on the idle engine has its turn, and the port answers it. -/
theorem turn_rc0 (op : HostOp) : (withOp rc0 op).BusTurn op [] := ⟨⟨rfl, rfl, fun h => nomatch h⟩, rfl⟩

/-- A host event during a run has its turn, and the port answers it. -/
theorem turn_run (B : List Byte) (opts : BitVec 4) (hexin : Bool) (op : HostOp) :
    (withOp (atCheck B opts hexin) op).BusTurn op [] :=
  ⟨⟨rfl, rfl, fun _ => Nat.one_ne_zero⟩, rfl⟩

/-- A host event while the reset input is asserted has its turn. -/
theorem turn_held (op : HostOp) : (withOp { rc0 with rst := true } op).HostTurn op [] :=
  ⟨rfl, rfl, fun h => nomatch h⟩

theorem test_meets_decode_of_encode :
    (Instr.roundF 0#6).wf = true ∧ (Instr.roundG 31#6).wf = true ∧ (Instr.roundH 32#6).wf = true ∧
      (Instr.roundI 63#6).wf = true ∧ (Instr.start 0#4 false).wf = true ∧ Instr.output.wf = true := by
  decide

theorem test_meets_encode_of_decode :
    decode (.cmd 0x00001F01#32) = .ok (.start 15#4 true) ∧ decode (.phase 9#4) = .ok .output ∧
      decode (.round 48#6) = .ok (.roundI 48#6) := by decide

/-- The words of the last clause of LegalCommandWords and of CommandWriteOrder, the smallest and the
largest. -/
theorem test_meets_illegal_word :
    (0x00000003#32 ≠ 0x00000000#32 ∧ 0x00000003#32 ≠ 0x00000002#32 ∧
      0x00000003#32 &&& 0xFFFFE0FF#32 ≠ 0x00000001#32) ∧
      0xFFFFFFFF#32 ≠ 0x00000000#32 ∧ 0xFFFFFFFF#32 ≠ 0x00000002#32 ∧
        0xFFFFFFFF#32 &&& 0xFFFFE0FF#32 ≠ 0x00000001#32 := by decide

/-- A START word at each end of its range, on an idle and on a busy engine. -/
theorem test_meets_start :
    rc0.busy = false ∧ (atCheck abc 0#4 false).busy = true ∧
      (0x00000001#32 &&& 0xFFFFE0FF#32 = 0x00000001#32 ∧ (0x00000001#32).extractLsb' 8 4 = 0#4 ∧
        (0x00000001#32).getLsbD 12 = false) ∧
        0x00001F01#32 &&& 0xFFFFE0FF#32 = 0x00000001#32 ∧ (0x00001F01#32).extractLsb' 8 4 = 15#4 ∧
          (0x00001F01#32).getLsbD 12 = true := by decide

/-- CHECK passes for a raw message that fills MSGBUF. -/
theorem test_meets_check_passes_raw : { rc0 with msgLen := 4096#32 }.CheckPasses := by
  unfold State.CheckPasses
  decide

theorem test_meets_check_passes_hex : (atCheck [0x30#8, 0x41#8] 15#4 true).CheckPasses := by
  unfold State.CheckPasses
  decide

theorem test_meets_check_raises_length :
    { rc0 with msgLen := 4097#32 }.cfg.msgBufBytes < { rc0 with msgLen := 4097#32 }.msgLen.toNat := by decide

theorem test_meets_check_odd :
    (atCheck abc 0#4 true).msgLen.toNat ≤ (atCheck abc 0#4 true).cfg.msgBufBytes ∧
      (atCheck abc 0#4 true).hexin = true ∧ (atCheck abc 0#4 true).msgLen.toNat % 2 = 1 := by decide

/-- The lowest bad character is the last one of "0g" (V3). -/
theorem test_meets_check_non_hex :
    (atCheck [0x30#8, 0x67#8] 0#4 true).msgLen.toNat ≤ (atCheck [0x30#8, 0x67#8] 0#4 true).cfg.msgBufBytes ∧
      (atCheck [0x30#8, 0x67#8] 0#4 true).hexin = true ∧
        (atCheck [0x30#8, 0x67#8] 0#4 true).msgLen.toNat % 2 = 0 ∧
          1 < (atCheck [0x30#8, 0x67#8] 0#4 true).msgLen.toNat ∧
            hexval ((atCheck [0x30#8, 0x67#8] 0#4 true).msgbuf.read 1) = none ∧
              ∀ i < 1, (hexval ((atCheck [0x30#8, 0x67#8] 0#4 true).msgbuf.read i)).isSome = true := by
  decide

/-- The ends of the three ranges of R96, and their neighbours outside. -/
theorem test_meets_hex_digits :
    hexval 0x30#8 = some 0#4 ∧ hexval 0x39#8 = some 9#4 ∧ hexval 0x61#8 = some 10#4 ∧
      hexval 0x66#8 = some 15#4 ∧ hexval 0x41#8 = some 10#4 ∧ hexval 0x46#8 = some 15#4 ∧
        hexval 0x2f#8 = none ∧ hexval 0x3a#8 = none ∧ hexval 0x60#8 = none ∧ hexval 0x67#8 = none ∧
          hexval 0x40#8 = none ∧ hexval 0x47#8 = none := by decide

/-- The string "0A0b" of V3: both letter cases. -/
theorem test_meets_hexdecode :
    ([0x30#8, 0x41#8, 0x30#8, 0x62#8] : List Byte).length % 2 = 0 ∧
      (∀ i < 4, (hexval (byteAt [0x30#8, 0x41#8, 0x30#8, 0x62#8] i)).isSome = true) ∧
        hexval (byteAt [0x30#8, 0x41#8, 0x30#8, 0x62#8] 0) = some 0#4 ∧
          hexval (byteAt [0x30#8, 0x41#8, 0x30#8, 0x62#8] 1) = some 10#4 := by decide

/-- Indices in each part of pad("abc"): its message, its zero bytes and its last eight bytes. -/
theorem test_meets_padded_message :
    2 < abc.length ∧ (abc.length < 4 ∧ 4 + 8 < (padMessage abc).length) ∧
      (abc.length < 55 ∧ 55 + 8 < (padMessage abc).length) := by decide

theorem test_meets_pad :
    ((atCheck abc 0#4 false).CheckPasses ∧ (atCheck abc 0#4 false).hexin = false) ∧
      (atCheck [0x30#8, 0x41#8] 0#4 true).CheckPasses ∧ (atCheck [0x30#8, 0x41#8] 0#4 true).hexin = true := by
  unfold State.CheckPasses
  decide

/-- A value that fits 4 bytes exactly, and V12's value, 6 bytes long. -/
theorem test_meets_serialisation :
    0xFFFFFFFF < 256 ^ 4 ∧ 256 ^ (6 - 1) ≤ 0x010102030405 ∧ 0x010102030405 < 256 ^ 6 ∧ 4 < 6 := by decide

/-- One block, and two groups of which the second has two sub-blocks. -/
theorem test_meets_mixer :
    (64 ≤ (List.replicate 64 0#8 : List Byte).length ∧ (List.replicate 64 0#8 : List Byte).length % 64 = 0 ∧
      192 * 0 < (List.replicate 64 0#8 : List Byte).length) ∧
      64 ≤ (List.replicate 320 0#8 : List Byte).length ∧
        (List.replicate 320 0#8 : List Byte).length % 64 = 0 ∧
          192 * 1 < (List.replicate 320 0#8 : List Byte).length := by
  simp only [List.length_replicate]
  decide

theorem test_meets_cubesum :
    (atPhase 3#4 1#4 (padMessage []) 4#32).work.length + 192 =
      64 * (atPhase 3#4 1#4 (padMessage []) 4#32).blockTotal.toNat := by decide

/-- The clauses of COMPRESS, CHAOS and OUTPUT on the selector. -/
theorem test_meets_selector :
    (2#4).getLsbD 1 = true ∧ ((4#4).getLsbD 1 = false ∧ (4#4).getLsbD 2 = true) ∧
      ((0#4).getLsbD 1 = false ∧ (0#4).getLsbD 2 = false) ∧ (8#4).getLsbD 3 = true ∧
        (7#4).getLsbD 3 = false := by decide

/-- The two clauses of the end of a block: another block follows, or none does. -/
theorem test_meets_ends_block :
    (atPhase 5#4 0#4 [] 2#32).blockCnt.toNat + 1 < (atPhase 5#4 0#4 [] 2#32).blockTotal.toNat ∧
      (atPhase 5#4 0#4 [] 1#32).blockCnt.toNat + 1 = (atPhase 5#4 0#4 [] 1#32).blockTotal.toNat := by decide

/-- A read of each named register has its turn; the last word of each file at its own offset. -/
theorem test_meets_register_reads (off : Word) :
    (withOp rc0 (.read .w32 off)).BusTurn (.read .w32 off) [] ∧ (withOp rc0 (.read .w32 off)).busy = false ∧
      (0x020#32).toNat = 0x020 + 4 * (0 : Fin 4).val ∧ (0x02C#32).toNat = 0x020 + 4 * (3 : Fin 4).val ∧
        (0x030#32).toNat = 0x030 + 4 * (0 : Fin 4).val ∧ (0x03C#32).toNat = 0x030 + 4 * (3 : Fin 4).val ∧
          (0x040#32).toNat = 0x040 + 4 * (0 : Fin 8).val ∧ (0x05C#32).toNat = 0x040 + 4 * (7 : Fin 8).val :=
  ⟨turn_rc0 _, rfl, by decide⟩

theorem test_meets_hstate_read_while_busy :
    (withOp (atCheck abc 0#4 false) (.read .w32 0x02C#32)).BusTurn (.read .w32 0x02C#32) [] ∧
      (withOp (atCheck abc 0#4 false) (.read .w32 0x02C#32)).busy = true ∧
        (0x02C#32).toNat = 0x020 + 4 * (3 : Fin 4).val := ⟨turn_run _ _ _ _, rfl, by decide⟩

/-- A STATUS write with bit 2 set, and one with it clear. -/
theorem test_meets_status_write :
    (withOp rc0 (.write .w32 0x004#32 0x6#32)).BusTurn (.write .w32 0x004#32 0x6#32) [] ∧
      (0x6#32).getLsbD 2 = true ∧ (0x2#32).getLsbD 2 = false := ⟨turn_rc0 _, by decide⟩

theorem test_meets_irq_enable_write :
    (withOp rc0 (.write .w32 0x00C#32 0x3#32)).BusTurn (.write .w32 0x00C#32 0x3#32) [] := turn_rc0 _

/-- Reads of the first and of the last word of MSGBUF, the latter during a run. -/
theorem test_meets_msgbuf_word_read :
    ((withOp rc0 (.read .w32 0x1000#32)).BusTurn (.read .w32 0x1000#32) [] ∧
      (0x1000#32).toNat = 0x1000 + 4 * 0 ∧ 4 * 0 < rc0.cfg.msgBufBytes) ∧
      (withOp (atCheck abc 0#4 false) (.read .w32 0x1FFC#32)).BusTurn (.read .w32 0x1FFC#32) [] ∧
        (0x1FFC#32).toNat = 0x1000 + 4 * 1023 ∧ 4 * 1023 < rc0.cfg.msgBufBytes :=
  ⟨⟨turn_rc0 _, by decide, by decide⟩, turn_run _ _ _ _, by decide, by decide⟩

/-- The last word of MSGBUF. -/
theorem test_meets_msgbuf_write :
    (withOp rc0 (.write .w32 0x1FFC#32 0x1#32)).BusTurn (.write .w32 0x1FFC#32 0x1#32) [] ∧
      (withOp rc0 (.write .w32 0x1FFC#32 0x1#32)).busy = false ∧ (0x1FFC#32).toNat = 0x1000 + 4 * 1023 ∧
        4 * 1023 < (withOp rc0 (.write .w32 0x1FFC#32 0x1#32)).cfg.msgBufBytes :=
  ⟨turn_rc0 _, rfl, by decide, by decide⟩

/-- The read that follows in MsgbufWriteThenRead. -/
theorem test_meets_msgbuf_read :
    nextIs (step (withOp rc0 (.write .w32 0x1FFC#32 0x1#32)))
      (fun t => ((withOp t (.read .w32 0x1FFC#32)).msgbuf == t.msgbuf) && t.inner == .outside && !t.busy) =
        true := by decide

/-- MSG_LEN, and the first and the last word of MSGBUF. -/
theorem test_meets_busy_write (off v : Word) :
    (withOp (atCheck abc 0#4 false) (.write .w32 off v)).BusTurn (.write .w32 off v) [] ∧
      (withOp (atCheck abc 0#4 false) (.write .w32 off v)).busy = true ∧
        ((0x008#32).toNat % 4 = 0 ∧ (0x008#32).toNat = 0x008) ∧
          ((0x1000#32).toNat % 4 = 0 ∧ 0x1000 ≤ (0x1000#32).toNat ∧ (0x1000#32).toNat < 0x1000 + 4096) ∧
            (0x1FFC#32).toNat % 4 = 0 ∧ 0x1000 ≤ (0x1FFC#32).toNat ∧ (0x1FFC#32).toNat < 0x1000 + 4096 ∧
              rc0.cfg.msgBufBytes = 4096 :=
  ⟨turn_run _ _ _ _, rfl, by decide⟩

theorem test_meets_msg_len_write :
    (withOp rc0 (.write .w32 0x008#32 0xFFFFFFFF#32)).BusTurn (.write .w32 0x008#32 0xFFFFFFFF#32) [] ∧
      (withOp rc0 (.write .w32 0x008#32 0xFFFFFFFF#32)).busy = false := ⟨turn_rc0 _, rfl⟩

/-- A narrow write and a misaligned read, the latter in the window's last word. -/
theorem test_meets_unadmitted :
    ((withOp rc0 (.write .w16 0x000#32 0x1#32)).BusTurn (.write .w16 0x000#32 0x1#32) [] ∧
      (0x000#32).toNat < 2 ^ (withOp rc0 (.write .w16 0x000#32 0x1#32)).cfg.addrBits ∧ Width.w16 ≠ .w32) ∧
      (withOp rc0 (.read .w32 0xFFFF#32)).BusTurn (.read .w32 0xFFFF#32) [] ∧
        (0xFFFF#32).toNat < 2 ^ (withOp rc0 (.read .w32 0xFFFF#32)).cfg.addrBits ∧ (0xFFFF#32).toNat % 4 ≠ 0 :=
  ⟨⟨turn_rc0 _, by decide, by decide⟩, turn_rc0 _, by decide, by decide⟩

/-- The ends of the reserved and read-only ranges, as writes and as reads. -/
theorem test_meets_reserved :
    (∀ off v, (withOp rc0 (.write .w32 off v)).BusTurn (.write .w32 off v) []) ∧
      (∀ off, (withOp rc0 (.read .w32 off)).BusTurn (.read .w32 off) []) ∧
        ((0x060#32).toNat % 4 = 0 ∧ 0x060 ≤ (0x060#32).toNat ∧ (0x060#32).toNat < 0x1000) ∧
          ((0xFFC#32).toNat % 4 = 0 ∧ 0x060 ≤ (0xFFC#32).toNat ∧ (0xFFC#32).toNat < 0x1000) ∧
            ((0x2000#32).toNat % 4 = 0 ∧ 0x1000 + rc0.cfg.msgBufBytes ≤ (0x2000#32).toNat) ∧
              (0xFFFC#32).toNat % 4 = 0 ∧ 0x1000 + rc0.cfg.msgBufBytes ≤ (0xFFFC#32).toNat ∧
                (0xFFFC#32).toNat < 2 ^ rc0.cfg.addrBits :=
  ⟨fun _ _ => turn_rc0 _, fun _ => turn_rc0 _, by decide, by decide, by decide, by decide, by decide,
    by decide⟩

/-- A read-only register's offset is in the range of the write clause. -/
theorem test_meets_read_only :
    (0x010#32).toNat % 4 = 0 ∧ 0x010 ≤ (0x010#32).toNat ∧ (0x010#32).toNat < 0x1000 := by decide

/-- A legal command word, and an illegal one while BUSY = 0 and while BUSY = 1. -/
theorem test_meets_step_runs_command :
    ((withOp rc0 (.write .w32 0x000#32 0x00000501#32)).BusTurn (.write .w32 0x000#32 0x00000501#32) [] ∧
      decode (.cmd 0x00000501#32) = .ok (.start 5#4 false)) ∧
      (withOp rc0 (.write .w32 0x000#32 0x00000003#32)).BusTurn (.write .w32 0x000#32 0x00000003#32) [] ∧
        (withOp (atCheck abc 0#4 false) (.write .w32 0x000#32 0x00000003#32)).BusTurn
            (.write .w32 0x000#32 0x00000003#32) [] ∧
          (decode (.cmd 0x00000003#32)).isOk = false :=
  ⟨⟨turn_rc0 _, by decide⟩, turn_rc0 _, turn_run _ _ _ _, by decide⟩

theorem test_meets_step_runs_phase :
    (atPhase 9#4 0#4 [] 1#32).SequencerTurn ∧ decode (.phase (atPhase 9#4 0#4 [] 1#32).phase) = .ok .output :=
  ⟨⟨rfl, by decide, .inl rfl⟩, by decide⟩

theorem test_meets_step_runs_round :
    { atPhase 5#4 0#4 [] 1#32 with inner := .round 63#6 }.inner = .round 63#6 ∧
      decode (.round 63#6) = .ok (.roundI 63#6) := ⟨rfl, by decide⟩

theorem test_meets_hard_reset :
    (withOp (atCheck abc 0#4 false) (.rst true)).HostTurn (.rst true) [] := (turn_run _ _ _ _).1

/-- A read and a release of the reset input while it is asserted, and nothing pending. -/
theorem test_meets_asserted_reset :
    ((withOp { rc0 with rst := true } (.read .w8 0x3#32)).HostTurn (.read .w8 0x3#32) [] ∧
      (withOp { rc0 with rst := true } (.read .w8 0x3#32)).rst = true ∧
        ∀ level, HostOp.read .w8 0x3#32 ≠ .rst level) ∧
      (withOp { rc0 with rst := true } (.rst false)).HostTurn (.rst false) [] ∧
        { rc0 with rst := true }.inner = .outside ∧ { rc0 with rst := true }.rst = true ∧
          { rc0 with rst := true }.pending = [] :=
  ⟨⟨turn_held _, rfl, fun _ h => nomatch h⟩, turn_held _, rfl, rfl, rfl⟩

/-- The invariant holds while CHECK is pending, with a host event to come, and the step answers. -/
theorem test_meets_step_keeps_invariant :
    (withOp (atCheck abc 0#4 false) (.write .w32 0x008#32 0x5#32)).Inv ∧
      ∃ t, step (withOp (atCheck abc 0#4 false) (.write .w32 0x008#32 0x5#32)) = .next t ∧ t.err = true :=
  ⟨by constructor <;> first | decide | (intro h; cases h), exists_of_nextIs (by decide)⟩

/-- The invariant holds in the middle of a run with every option on, COMPRESS pending. -/
theorem test_meets_invariant_compress :
    { atPhase 5#4 15#4 (List.replicate 256 0#8) 4#32 with blockCnt := 3#32 }.Inv := by
  constructor <;> first | decide +kernel | (intro h; cases h)

/-- The invariant holds while the reset input is asserted. -/
theorem test_meets_invariant_reset_held : { rc0 with rst := true }.Inv := by
  constructor <;> first | decide | exact fun _ => by constructor <;> decide

theorem test_meets_outside_window :
    (withOp rc0 (.read .w32 0x10000#32)).Inv ∧
      2 ^ (withOp rc0 (.read .w32 0x10000#32)).cfg.addrBits ≤ (0x10000#32).toNat ∧
        (withOp rc0 (.read .w32 0x10000#32)).BusTurn (.read .w32 0x10000#32) [] :=
  ⟨by constructor <;> first | decide | (intro h; cases h), by decide, turn_rc0 _⟩

theorem test_meets_run :
    (atCheck abc 0#4 false).inner = .outside ∧ (atCheck abc 0#4 false).rst = false ∧
      (atCheck abc 0#4 false).pending = [] ∧
      (atCheck abc 0#4 false).busy = true ∧ (atCheck abc 0#4 false).phase = 1#4 ∧
        (atCheck abc 0#4 false).CheckPasses :=
  ⟨rfl, rfl, rfl, rfl, rfl, by unfold State.CheckPasses; decide⟩

/-- A state with the same inputs and other results, as an earlier run may leave. -/
def atCheckAfterRun : State :=
  { atCheck abc 0#4 false with digest := iv, blockCnt := 7#32, blockTotal := 7#32, work := [0x55#8] }

theorem test_meets_run_history :
    runSteps (atCheck abc 0#4 false).opts
        ((hashStream (atCheck abc 0#4 false).cfg (atCheck abc 0#4 false).opts
          (atCheck abc 0#4 false).message).length / 64) = 4 ∧
      (∀ k < (atCheck abc 0#4 false).msgLen.toNat,
        atCheckAfterRun.msgbuf.read k = (atCheck abc 0#4 false).msgbuf.read k) ∧
        (∃ t, core.run 4 (atCheck abc 0#4 false) = .next t ∧ t.done = true) ∧
          ∃ t, core.run 4 atCheckAfterRun = .next t ∧ t.done = true :=
  ⟨by decide +kernel, fun _ _ => rfl, exists_of_nextIs (p := fun t => t.done) (by decide +kernel),
    exists_of_nextIs (p := fun t => t.done) (by decide +kernel)⟩

/-- The runs of FinalOptionIsIndependent: the selector 0, and 8 with a step more. -/
theorem test_meets_final_option :
    (0#4).getLsbD 3 = false ∧ (atCheck abc 0#4 false).opts.getLsbD 3 = false ∧
      (∃ t, core.run 4 (atCheck abc 0#4 false) = .next t ∧ t.done = true) ∧
        ∃ t, core.run 5 { atCheck abc 0#4 false with opts := (atCheck abc 0#4 false).opts ||| 8#4 } =
          .next t ∧ t.done = true :=
  ⟨by decide, by decide, exists_of_nextIs (p := fun t => t.done) (by decide +kernel),
    exists_of_nextIs (p := fun t => t.done) (by decide +kernel)⟩

/-- The string "4a4B" as a hex string, in both letter cases, and its bytes. -/
theorem test_meets_hex_mode :
    (atCheck [0x34#8, 0x61#8, 0x34#8, 0x42#8] 0#4 true).hexin = true ∧
      (atCheck [0x4a#8, 0x4b#8] 0#4 false).hexin = false ∧
        (atCheck [0x34#8, 0x61#8, 0x34#8, 0x42#8] 0#4 true).CheckPasses ∧
          (atCheck [0x34#8, 0x61#8, 0x34#8, 0x42#8] 0#4 true).msgLen.toNat =
            2 * (atCheck [0x4a#8, 0x4b#8] 0#4 false).msgLen.toNat ∧
            ∀ k < (atCheck [0x4a#8, 0x4b#8] 0#4 false).msgLen.toNat, ∀ hi lo,
              hexval ((atCheck [0x34#8, 0x61#8, 0x34#8, 0x42#8] 0#4 true).msgbuf.read (2 * k)) = some hi →
                hexval ((atCheck [0x34#8, 0x61#8, 0x34#8, 0x42#8] 0#4 true).msgbuf.read (2 * k + 1)) =
                  some lo →
                  ((atCheck [0x4a#8, 0x4b#8] 0#4 false).msgbuf.read k).toNat = 16 * hi.toNat + lo.toNat :=
  ⟨rfl, rfl, by unfold State.CheckPasses; decide +kernel, by decide, by decide +kernel⟩

/-- A write during a run that changes nothing of it. -/
theorem test_meets_host_cannot_disturb :
    (withOp (atCheck abc 0#4 false) (.write .w32 0x1000#32 0x5#32)).HostTurn
        (.write .w32 0x1000#32 0x5#32) [] ∧
      (withOp (atCheck abc 0#4 false) (.write .w32 0x1000#32 0x5#32)).busy = true ∧
        (∃ t, step (withOp (atCheck abc 0#4 false) (.write .w32 0x1000#32 0x5#32)) = .next t ∧ t.busy = true) ∧
          HostOp.write .w32 0x1000#32 0x5#32 ≠ .rst true ∧
            HostOp.write .w32 0x1000#32 0x5#32 ≠ .write .w32 0x000#32 0x00000002#32 :=
  ⟨(turn_run _ _ _ _).1, rfl, exists_of_nextIs (p := fun t => t.busy) (by decide), by decide, by decide⟩

/-- No host event is pending; none may come before the sequencer's step; and one may. -/
theorem test_meets_never_held_off :
    ((atCheck abc 0#4 false).inner = .outside ∧ (atCheck abc 0#4 false).busy = true ∧
      (atCheck abc 0#4 false).rst = false ∧ (atCheck abc 0#4 false).pending = []) ∧
      { withOp (atCheck abc 0#4 false) (.rst true) with gap := 0 }.gap = 0 ∧
        (withOp (atCheck abc 0#4 false) (.read .w32 0x004#32)).HostTurn (.read .w32 0x004#32) [] ∧
          ∃ t, step (withOp (atCheck abc 0#4 false) (.read .w32 0x004#32)) = .next t ∧ t.busy = true :=
  ⟨⟨rfl, rfl, rfl, rfl⟩, rfl, (turn_run _ _ _ _).1, exists_of_nextIs (p := fun t => t.busy) (by decide)⟩

theorem test_meets_configuration :
    ∃ t, step (atPhase 9#4 0#4 [] 1#32) = .next t ∧ t.done = true :=
  exists_of_nextIs (p := fun t => t.done) (by decide)

theorem test_meets_operations_leave_inputs :
    ∃ t, exec .output (atPhase 9#4 0#4 [] 1#32) = .next t ∧ t.done = true :=
  exists_of_nextIs (p := fun t => t.done) (by decide)

/-- DIGEST changes in an OUTPUT step, at a CLEAR and at a reset. -/
theorem test_meets_digest_changes :
    (∃ t, step (atPhase 9#4 0#4 [] 1#32) = .next t ∧
      decide (t.digest ≠ (atPhase 9#4 0#4 [] 1#32).digest) = true) ∧
      (∃ t, step (withOp { rc0 with digest := iv } (.write .w32 0x000#32 0x00000002#32)) = .next t ∧
        decide (t.digest ≠ iv) = true) ∧
        ∃ t, step (withOp { rc0 with digest := iv } (.rst true)) = .next t ∧ decide (t.digest ≠ iv) = true :=
  ⟨exists_of_nextIs (by decide), exists_of_nextIs (by decide), exists_of_nextIs (by decide)⟩

theorem test_meets_busy_rises :
    rc0.busy = false ∧ ∃ t, step (withOp rc0 (.write .w32 0x000#32 0x00000001#32)) = .next t ∧ t.busy = true :=
  ⟨rfl, exists_of_nextIs (p := fun t => t.busy) (by decide)⟩

/-- ERR rises in a CHECK step, at an illegal command and at a dropped write. -/
theorem test_meets_err_rises :
    (∃ t, step { atCheck [] 0#4 false with msgLen := 4097#32 } = .next t ∧ t.err = true) ∧
      (∃ t, step (withOp rc0 (.write .w32 0x000#32 0x00000003#32)) = .next t ∧ t.err = true) ∧
        ∃ t, step (withOp (atCheck abc 0#4 false) (.write .w32 0x008#32 0x5#32)) = .next t ∧ t.err = true :=
  ⟨exists_of_nextIs (p := fun t => t.err) (by decide), exists_of_nextIs (p := fun t => t.err) (by decide),
    exists_of_nextIs (p := fun t => t.err) (by decide)⟩

/-- 3 halves of a unit, the values 0.5 and 1, and a tie that rounds to the even neighbour. -/
theorem test_meets_rounding :
    0 < 2 ∧ f64Round false 3 2 = 2#64 ∧ f64Round false 5 2 = 2#64 ∧
      f64Finite 0x3FE0000000000000#64 = true ∧ f64Finite 0x3FF0000000000000#64 = true := by decide

/-- By hand, on both sides of the midpoint of the largest finite value and 2^1024, for both signs. -/
theorem test_meets_rounding_midpoint :
    f64Round false ((2 ^ 54 - 1) * 2 ^ 2044) 1 = 0x7FF0000000000000#64 ∧
      f64Round true ((2 ^ 54 - 1) * 2 ^ 2044) 1 = 0xFFF0000000000000#64 ∧
        f64Round false ((2 ^ 54 - 1) * 2 ^ 2044 - 1) 1 = 0x7FEFFFFFFFFFFFFF#64 ∧
          f64Round true ((2 ^ 54 - 1) * 2 ^ 2044 - 1) 1 = 0xFFEFFFFFFFFFFFFF#64 := by decide +kernel

end Sys2Proof.Tests
end

section
/-! SUPPORT. The step of a transaction that the port answers (`BusTurn`), what the register map says of
the reserved and read-only offsets, and the statements of 10_state.md about STATUS writes and reserved
offsets. -/

namespace Sys2Proof.Machine

/-! ### A host event whose turn it is -/

/-- A step at a host event's turn is that event, off the queue. -/
theorem State.HostTurn.step_eq {s : State} {op : HostOp} {rest : List HostOp}
    (h : s.HostTurn op rest) : step s = hostEvent op (s.hostGoes rest) := by
  have ht : s.turn = .host op rest := turn_host_iff.mpr h
  simp only [step, State.event, ht]

theorem State.BusTurn.step_write {s : State} {width : Width} {off v : Word} {rest : List HostOp}
    (h : s.BusTurn (.write width off v) rest) : step s = busWrite width off v (s.hostGoes rest) := by
  obtain ⟨hturn, hrst⟩ := h
  rw [hturn.step_eq]
  exact atPort_released (by simpa using hrst) _

theorem State.BusTurn.step_read {s : State} {width : Width} {off : Word} {rest : List HostOp}
    (h : s.BusTurn (.read width off) rest) : step s = busRead width off (s.hostGoes rest) := by
  obtain ⟨hturn, hrst⟩ := h
  rw [hturn.step_eq]
  exact atPort_released (by simpa using hrst) _

/-- A host event that gives an answer and takes free values, and does nothing else, leaves the whole
engine as it was. -/
theorem hostGoes_answered_keeps (s : State) (rest : List HostOp) (a : Option Answer) (d : Nat) :
    s.KeepsInputs { s.hostGoes rest with answer := a, draws := d } ∧
      s.KeepsFlags { s.hostGoes rest with answer := a, draws := d } ∧
        s.KeepsHidden { s.hostGoes rest with answer := a, draws := d } ∧
          s.KeepsResults { s.hostGoes rest with answer := a, draws := d } ∧
            { s.hostGoes rest with answer := a, draws := d }.phase = s.phase := by
  refine ⟨?_, ?_, ?_, ?_, by simp⟩ <;> constructor <;> simp

/-! ### Admitted transactions -/

theorem admitted_w32 {off : Word} (h : off.toNat % 4 = 0) : admitted .w32 off = true := by
  simp [admitted, h]

/-- An admitted write within the window is answered OKAY and writes the register. -/
theorem busWrite_admitted {width : Width} {off : Word} {s : State} (v : Word)
    (ha : admitted width off = true) (hr : regAt s.cfg off.toNat ≠ .outside) :
    busWrite width off v s =
      writeReg (regAt s.cfg off.toNat) off v { s with answer := some .okay } := by
  unfold busWrite
  split
  · contradiction
  · exact if_pos ha

/-- An admitted read within the window is answered OKAY with the register's word. -/
theorem busRead_admitted {width : Width} {off : Word} {s : State}
    (ha : admitted width off = true) (hr : regAt s.cfg off.toNat ≠ .outside) :
    busRead width off s =
      .next { (readReg (regAt s.cfg off.toNat) s).2 with
        answer := some (.okayData (readReg (regAt s.cfg off.toNat) s).1) } := by
  unfold busRead
  split
  · contradiction
  · exact if_pos ha

/-! ### The register map -/

theorem regAt_low {c : Config} {off : Nat} (h : off < 0x1000) : regAt c off = lowReg off := if_pos h

/-- The offsets above MSGBUF, to the end of the window, are reserved (R20, R36). -/
theorem regAt_above_msgbuf {c : Config} {off : Nat} (h : 0x1000 + c.msgBufBytes ≤ off)
    (hw : off < 2 ^ c.addrBits) : regAt c off = .reserved := by
  rw [regAt, if_neg (by omega), if_neg (by omega), if_pos hw]

/-- The offsets from the last digest word to MSGBUF are reserved (R20, R36). -/
theorem lowReg_reserved {off : Nat} (h : 0x060 ≤ off) : lowReg off = .reserved := by
  unfold lowReg
  split
  case h_25 => rfl
  all_goals omega

theorem regAt_reserved {c : Config} {off : Nat} (hw : off < 2 ^ c.addrBits)
    (h : 0x060 ≤ off ∧ off < 0x1000 ∨ 0x1000 + c.msgBufBytes ≤ off) : regAt c off = .reserved := by
  rcases h with ⟨hlo, hhi⟩ | habove
  · rw [regAt_low hhi, lowReg_reserved hlo]
  · exact regAt_above_msgbuf habove hw

/-- The registers whose write is ignored: the read-only ones and the reserved offsets (R20, R36). -/
def Reg.IgnoresWrites (r : Reg) : Prop :=
  r ≠ .outside ∧ ∀ (off v : Word) (s : State), writeReg r off v s = .next s

theorem reserved_ignoresWrites : Reg.reserved.IgnoresWrites := ⟨nofun, fun _ _ _ => rfl⟩

/-- The four writable registers stand at the offsets below 0x010 (R20). -/
theorem lowReg_ignoresWrites {off : Nat} (h : 0x010 ≤ off) : (lowReg off).IgnoresWrites := by
  unfold lowReg
  split
  case h_1 | h_2 | h_3 | h_4 => omega
  all_goals exact ⟨nofun, fun _ _ _ => rfl⟩

theorem regAt_ignoresWrites {c : Config} {off : Nat} (hw : off < 2 ^ c.addrBits)
    (h : 0x010 ≤ off ∧ off < 0x1000 ∨ 0x1000 + c.msgBufBytes ≤ off) :
    (regAt c off).IgnoresWrites := by
  rcases h with ⟨hlo, hhi⟩ | habove
  · rw [regAt_low hhi]
    exact lowReg_ignoresWrites hlo
  · rw [regAt_above_msgbuf habove hw]
    exact reserved_ignoresWrites

/-! ### The statements -/

/-- Settles O40: a write there is a register write that is ignored, a read there returns the word 0,
and either way the step only takes the event off the queue and answers it. -/
theorem reservedAndReadOnlyOffsets : Obligations.ReservedAndReadOnlyOffsets := by
  intro s rest off v halign hwindow
  have hadm := admitted_w32 halign
  refine ⟨fun hturn hoff => ?_, fun hturn hoff => ?_⟩
  · obtain ⟨hin, hignored⟩ := regAt_ignoresWrites hwindow hoff
    refine ⟨{ s.hostGoes rest with answer := some .okay }, ?_, rfl, hostGoes_answered_keeps s rest _ _⟩
    rw [hturn.step_write, busWrite_admitted v hadm (by simpa using hin)]
    simp [hignored]
  · have hreg : regAt (s.hostGoes rest).cfg off.toNat = .reserved := by
      simpa using regAt_reserved hwindow hoff
    refine ⟨{ s.hostGoes rest with answer := some (.okayData 0#32) }, ?_, rfl,
      hostGoes_answered_keeps s rest _ _⟩
    rw [hturn.step_read, busRead_admitted hadm (by rw [hreg]; nofun), hreg]
    rfl

/-- A STATUS write that the port answers is `clearFlags` on the engine, answered OKAY (R23). -/
theorem State.BusTurn.step_status_write {s : State} {v : Word} {rest : List HostOp}
    (h : s.BusTurn (.write .w32 0x004#32 v) rest) :
    step s = .next (State.clearFlags { s.hostGoes rest with answer := some .okay } v) := by
  have hreg : regAt (s.hostGoes rest).cfg (0x004#32).toNat = .status := rfl
  rw [h.step_write, busWrite_admitted v (admitted_w32 rfl) (by rw [hreg]; nofun), hreg]
  rfl

/-- Settles O33: the step is `clearFlags`, whose two bits act on separate fields. -/
theorem statusWriteOneToClear : Obligations.StatusWriteOneToClear := by
  intro s rest v hturn
  refine ⟨_, hturn.step_status_write, by simp, ?_, fun hv => ?_, fun hv => ?_, by simp, by simp, by simp,
    by simp, ?_, ?_, ?_⟩
  · rw [State.clearFlags_done]
    cases v.getLsbD 1 <;> simp
  · simp [hv]
  · simp [hv, -BitVec.getLsbD_eq_getElem]
  all_goals constructor <;> simp

end Sys2Proof.Machine
end

section
/-! SUPPORT. What the register map says of MSGBUF's words and of the whole window, what the bytes of a
MSGBUF word are, and the statements of 20_memory.md about MSGBUF reads, writes during a run and
transactions that are not admitted. -/

namespace Sys2Proof.Machine

/-! ### The register map within the window -/

theorem lowReg_ne_outside (off : Nat) : lowReg off ≠ .outside := by
  unfold lowReg
  split <;> nofun

/-- Every offset of the window names a register, a MSGBUF word or a reserved place (R20). -/
theorem regAt_ne_outside {c : Config} {off : Nat} (hw : off < 2 ^ c.addrBits) :
    regAt c off ≠ .outside := by
  by_cases hlow : off < 0x1000
  · rw [regAt_low hlow]
    exact lowReg_ne_outside off
  · by_cases hbuf : off < 0x1000 + c.msgBufBytes
    · rw [regAt, if_neg hlow, if_pos hbuf]
      nofun
    · rw [regAt_above_msgbuf (by omega) hw]
      nofun

/-- The offsets from 0x1000 to the end of MSGBUF name its words (R20, R64). -/
theorem regAt_in_msgbuf {c : Config} {off : Nat} (hlo : 0x1000 ≤ off)
    (hhi : off < 0x1000 + c.msgBufBytes) : regAt c off = .msgbuf ((off - 0x1000) / 4) := by
  rw [regAt, if_neg (by omega), if_pos hhi]

theorem regAt_msgbuf_word {c : Config} {k : Nat} (hk : 4 * k < c.msgBufBytes) :
    regAt c (0x1000 + 4 * k) = .msgbuf k := by
  rw [regAt_in_msgbuf (by omega) (by omega), Nat.add_sub_cancel_left,
    Nat.mul_div_cancel_left k (by decide)]

/-! ### The bytes of a word -/

/-- Bits 8m+7:8m of a little-endian word are its byte m (R65). -/
theorem extractLsb'_le32 (B : List Byte) (o : Nat) (m : Fin 4) :
    (le32 B o).extractLsb' (8 * m.val) 8 = byteAt B (o + m.val) := by
  simp only [le32, BitVec.extractLsb'_append_eq_ite]
  fin_cases m <;> simp

theorem Memory.byteAt_readBytes (b : Memory) (a : Nat) {n m : Nat} (hm : m < n) :
    byteAt (b.readBytes a n) m = b.read (a + m) := by
  simp [byteAt, Memory.readBytes, hm]

/-! ### Transactions that are not admitted -/

theorem admitted_eq_false {width : Width} {off : Word} (h : width ≠ .w32 ∨ off.toNat % 4 ≠ 0) :
    admitted width off = false := by
  simpa [admitted, ← not_and_or] using h

/-- A write within the window that is not admitted is answered ERROR and writes nothing (R63). -/
theorem busWrite_unadmitted {width : Width} {off : Word} {s : State} (v : Word)
    (ha : admitted width off = false) (hr : regAt s.cfg off.toNat ≠ .outside) :
    busWrite width off v s = .next { s with answer := some .error } := by
  unfold busWrite
  split
  · contradiction
  · exact if_neg (by simp [ha])

/-- A read within the window that is not admitted is answered ERROR with a free value (R63). -/
theorem busRead_unadmitted {width : Width} {off : Word} {s : State}
    (ha : admitted width off = false) (hr : regAt s.cfg off.toNat ≠ .outside) :
    busRead width off s =
      .next { s with
        answer := some (.errorData (Config.errorDraw s.draws)), draws := s.draws + 1 } := by
  unfold busRead
  split
  · contradiction
  · exact if_neg (by simp [ha])

/-- The interrupt line is a function of the flags and IRQ_EN (R233, R234). -/
theorem State.KeepsFlags.irq {s t : State} (hflags : s.KeepsFlags t) (hinputs : s.KeepsInputs t) :
    t.irq = s.irq := by
  rw [State.irq, hflags.done, hflags.err, hinputs.doneIe, hinputs.errIe, State.irq]

/-- `hostGoes_answered_keeps` with the interrupt line. -/
theorem hostGoes_answered_keeps_irq (s : State) (rest : List HostOp) (a : Option Answer) (d : Nat) :
    s.KeepsInputs { s.hostGoes rest with answer := a, draws := d } ∧
      s.KeepsFlags { s.hostGoes rest with answer := a, draws := d } ∧
        s.KeepsHidden { s.hostGoes rest with answer := a, draws := d } ∧
          s.KeepsResults { s.hostGoes rest with answer := a, draws := d } ∧
            { s.hostGoes rest with answer := a, draws := d }.phase = s.phase ∧
              { s.hostGoes rest with answer := a, draws := d }.irq = s.irq := by
  obtain ⟨hinputs, hflags, hhidden, hresults, hphase⟩ := hostGoes_answered_keeps s rest a d
  exact ⟨hinputs, hflags, hhidden, hresults, hphase, hflags.irq hinputs⟩

/-! ### Writes to the host's inputs during a run -/

/-- A write to MSG_LEN or to a MSGBUF word while BUSY = 1 raises BUSY_WRITE in place of its store (R68). -/
theorem writeReg_busy {r : Reg} {s : State} (off v : Word) (hbusy : s.busy = true)
    (hr : r = .msgLen ∨ ∃ k, r = .msgbuf k) :
    writeReg r off v s = .next (s.raise .busyWrite off) := by
  rcases hr with rfl | ⟨k, rfl⟩ <;> exact if_pos hbusy

theorem regAt_hostInput {c : Config} {off : Nat}
    (h : off = 0x008 ∨ 0x1000 ≤ off ∧ off < 0x1000 + c.msgBufBytes) :
    regAt c off = .msgLen ∨ ∃ k, regAt c off = .msgbuf k := by
  rcases h with rfl | ⟨hlo, hhi⟩
  · exact .inl rfl
  · exact .inr ⟨_, regAt_in_msgbuf hlo hhi⟩

/-- A step that is a 32-bit write to MSG_LEN or MSGBUF during a run raises BUSY_WRITE, and is answered
OKAY (R68). -/
theorem State.BusTurn.step_busy_write {s : State} {off v : Word} {rest : List HostOp}
    (h : s.BusTurn (.write .w32 off v) rest) (hbusy : s.busy = true) (halign : off.toNat % 4 = 0)
    (hoff : off.toNat = 0x008 ∨ 0x1000 ≤ off.toNat ∧ off.toNat < 0x1000 + s.cfg.msgBufBytes) :
    step s =
      .next (State.raise { s.hostGoes rest with answer := some .okay } .busyWrite off) := by
  have hreg := regAt_hostInput (c := (s.hostGoes rest).cfg) (by simpa using hoff)
  rw [h.step_write, busWrite_admitted v (admitted_w32 halign)]
  · exact writeReg_busy off v (by simpa using hbusy) hreg
  · rcases hreg with hreg | ⟨k, hreg⟩ <;> rw [hreg] <;> nofun

/-! ### The statements -/

/-- Settles O35: the register read there is MSGBUF word k, whose read has no side effect, so the step
only takes the event off the queue and answers it. -/
theorem msgbufReadReturnsWord : Obligations.MsgbufReadReturnsWord := by
  intro s rest off k hturn hoff hk
  have hreg : regAt (s.hostGoes rest).cfg off.toNat = .msgbuf k := by
    rw [hoff]
    exact regAt_msgbuf_word (by simpa using hk)
  refine ⟨{ s.hostGoes rest with
    answer := some (.okayData (le32 ((s.hostGoes rest).msgbuf.readBytes (4 * k) 4) 0)) }, _, ?_, rfl,
    fun m => ?_, by simp, hostGoes_answered_keeps_irq s rest _ _⟩
  · rw [hturn.step_read, busRead_admitted (admitted_w32 (by omega)) (by rw [hreg]; nofun), hreg]
    rfl
  · rw [extractLsb'_le32, Nat.zero_add, Memory.byteAt_readBytes _ _ m.isLt, State.hostGoes_msgbuf]

/-- Settles O37: the step is `raise` of BUSY_WRITE, a continuing error, in place of the store. -/
theorem busyWriteIsDropped : Obligations.BusyWriteIsDropped := by
  intro s rest off v hturn hbusy halign hoff
  refine ⟨_, hturn.step_busy_write hbusy halign hoff, by simp, by simp [ErrorKind.code], by simp,
    by simp [ErrorKind.ending, hbusy], by simp [ErrorKind.ending], by simp, by simp, by simp,
    ?_, ?_, ?_⟩
  all_goals constructor <;> simp

/-- Settles O39: the port answers such a transaction ERROR before it reaches a register, so the step
only takes the event off the queue and answers it. -/
theorem unadmittedTransactionHasNoEffect : Obligations.UnadmittedTransactionHasNoEffect := by
  intro s rest width off v op hop hturn hwindow hbad
  have hadm := admitted_eq_false hbad
  have hin : regAt (s.hostGoes rest).cfg off.toNat ≠ .outside := by
    simpa using regAt_ne_outside hwindow
  rcases hop with rfl | rfl
  · exact ⟨_, hturn.step_write.trans (busWrite_unadmitted v hadm hin), fun _ => rfl, nofun,
      hostGoes_answered_keeps_irq s rest _ _⟩
  · exact ⟨_, hturn.step_read.trans (busRead_unadmitted hadm hin), nofun, fun _ => ⟨_, rfl⟩,
      hostGoes_answered_keeps_irq s rest _ _⟩

end Sys2Proof.Machine
end

section
/-! SUPPORT. The command words by their masks: which words decode, to what, and what a write of any
other word does; and the statement of 30_encoding.md about the legal command words. -/

namespace Sys2Proof.Machine

/-! ### The START pattern -/

/-- A command word is its reserved field, its option field and its opcode (R81). -/
theorem cmdFields_append (w : Word) :
    cmdReserved w ++ (w.extractLsb' 8 5 ++ cmdOpcode w) = w := by
  have hlow : w.extractLsb' 8 5 ++ w.extractLsb' 0 8 = w.extractLsb' 0 13 :=
    BitVec.extractLsb'_append_extractLsb'_eq_extractLsb' rfl
  rw [cmdReserved, cmdOpcode, hlow]
  exact BitVec.extractLsb'_append_extractLsb'

/-- START's mask clears the option field, bits 12:8, and keeps the rest (R82). -/
theorem and_startMask (w : Word) :
    w &&& 0xFFFFE0FF#32 = cmdReserved w ++ (0#5 ++ cmdOpcode w) := by
  have hmask : 0xFFFFE0FF#32 = BitVec.allOnes 19 ++ (0#5 ++ BitVec.allOnes 8) := by decide
  calc w &&& 0xFFFFE0FF#32
    _ = (cmdReserved w ++ (w.extractLsb' 8 5 ++ cmdOpcode w)) &&&
          (BitVec.allOnes 19 ++ (0#5 ++ BitVec.allOnes 8)) := by rw [cmdFields_append, hmask]
    _ = cmdReserved w ++ (0#5 ++ cmdOpcode w) := by
      simp only [BitVec.and_append, BitVec.and_allOnes, BitVec.and_zero]

theorem cmdOpcode_and_startMask (w : Word) : cmdOpcode (w &&& 0xFFFFE0FF#32) = cmdOpcode w := by
  rw [and_startMask, cmdOpcode, BitVec.extractLsb'_append_eq_of_add_le (by decide),
    BitVec.extractLsb'_append_eq_right]

theorem cmdReserved_and_startMask (w : Word) :
    cmdReserved (w &&& 0xFFFFE0FF#32) = cmdReserved w := by
  rw [and_startMask, cmdReserved, BitVec.extractLsb'_append_eq_left]

/-- START's row of R82 by mask and match is START's opcode with a zero reserved field. -/
theorem startPattern_iff {w : Word} :
    w &&& 0xFFFFE0FF#32 = 0x00000001#32 ↔ cmdOpcode w = 0x01#8 ∧ cmdReserved w = 0#19 := by
  constructor
  · intro h
    rw [← cmdOpcode_and_startMask, ← cmdReserved_and_startMask, h]
    decide
  · rintro ⟨hop, hres⟩
    rw [and_startMask, hop, hres]
    decide

/-! ### The words that decode, and the others -/

/-- A word decodes to an operation exactly when it is that operation's row of R82. -/
theorem decodeCmd_eq_ok_iff {w : Word} {i : Instr} :
    decodeCmd w = .ok i ↔
      w = 0x00000000#32 ∧ i = .nop ∨ w = 0x00000002#32 ∧ i = .clear ∨
        w &&& 0xFFFFE0FF#32 = 0x00000001#32 ∧ i = .start (cmdOpts w) (cmdHexin w) := by
  by_cases hnop : w = 0x00000000#32
  · subst hnop
    simp [decodeCmd, eq_comm]
  by_cases hclear : w = 0x00000002#32
  · subst hclear
    simp [decodeCmd, eq_comm]
  by_cases hstart : w &&& 0xFFFFE0FF#32 = 0x00000001#32
  · simp [decodeCmd, hnop, hclear, hstart, startPattern_iff.mp hstart, eq_comm]
  · simp [decodeCmd, hnop, hclear, hstart, ← startPattern_iff]

theorem decodeCmd_eq_nop_iff {w : Word} : decodeCmd w = .ok .nop ↔ w = 0x00000000#32 := by
  simp [decodeCmd_eq_ok_iff]

theorem decodeCmd_eq_clear_iff {w : Word} : decodeCmd w = .ok .clear ↔ w = 0x00000002#32 := by
  simp [decodeCmd_eq_ok_iff]

theorem decodeCmd_eq_start_iff {w : Word} {o : BitVec 4} {x : Bool} :
    decodeCmd w = .ok (.start o x) ↔
      w &&& 0xFFFFE0FF#32 = 0x00000001#32 ∧ o = cmdOpts w ∧ x = cmdHexin w := by
  simp [decodeCmd_eq_ok_iff]

/-- A write of a word of no row of R82 raises ILLEGAL with the word (R226). -/
theorem writeCmd_illegal {w : Word} (hnop : w ≠ 0x00000000#32) (hclear : w ≠ 0x00000002#32)
    (hstart : w &&& 0xFFFFE0FF#32 ≠ 0x00000001#32) (s : State) :
    writeCmd w s = .next (s.raise .illegal w) := by
  cases hdec : decodeCmd w with
  | ok i => simp [decodeCmd_eq_ok_iff, hnop, hclear, hstart] at hdec
  | error r => simp [writeCmd, hdec]

/-! ### The statement -/

/-- Settles O3: the full mask of NOP and CLEAR leaves the word as it is, and START's mask tests its
opcode and its reserved field. -/
theorem legalCommandWords : Obligations.LegalCommandWords := by
  intro w
  have hfull : w &&& 0xFFFFFFFF#32 = w := BitVec.and_allOnes
  rw [hfull]
  exact ⟨decodeCmd_eq_nop_iff, decodeCmd_eq_clear_iff, fun _ _ => decodeCmd_eq_start_iff,
    fun hnop hclear hstart s => ⟨_, writeCmd_illegal hnop hclear hstart s, rfl, rfl, rfl⟩⟩

end Sys2Proof.Machine
end

section
/-! SUPPORT. Which digit each character has, what hexdecode makes of a character string, how long the
padded message is and what stands where in it, and which message PAD loads; and the statements of
40_codec_padding.md about the codec, the padding and PAD. -/

namespace Sys2Proof.Machine

/-! ### Digit values -/

theorem hexval_of_decimal {c : Byte} (hlo : 0x30 ≤ c.toNat) (hhi : c.toNat ≤ 0x39) :
    hexval c = some (BitVec.ofNat 4 (c.toNat - 0x30)) := if_pos ⟨hlo, hhi⟩

theorem hexval_of_lowercase {c : Byte} (hlo : 0x61 ≤ c.toNat) (hhi : c.toNat ≤ 0x66) :
    hexval c = some (BitVec.ofNat 4 (c.toNat - 0x61 + 10)) := by
  rw [hexval, if_neg (by omega), if_pos ⟨hlo, hhi⟩]

theorem hexval_of_uppercase {c : Byte} (hlo : 0x41 ≤ c.toNat) (hhi : c.toNat ≤ 0x46) :
    hexval c = some (BitVec.ofNat 4 (c.toNat - 0x41 + 10)) := by
  rw [hexval, if_neg (by omega), if_neg (by omega), if_pos ⟨hlo, hhi⟩]

theorem hexval_of_nonHex {c : Byte} (hdec : ¬(0x30 ≤ c.toNat ∧ c.toNat ≤ 0x39))
    (hlower : ¬(0x61 ≤ c.toNat ∧ c.toNat ≤ 0x66)) (hupper : ¬(0x41 ≤ c.toNat ∧ c.toNat ≤ 0x46)) :
    hexval c = none := by
  rw [hexval, if_neg hdec, if_neg hlower, if_neg hupper]

theorem map_toNat_digit {n : Nat} (h : n < 16) :
    (some (BitVec.ofNat 4 n)).map BitVec.toNat = some n :=
  congrArg some (Nat.mod_eq_of_lt h)

/-- The digit a character is rendered from is the digit it stands for (R96, R98). -/
@[simp] theorem hexval_hexdigit (d : BitVec 4) : hexval (hexdigit d) = some d := by
  revert d
  decide

/-! ### Hex decode -/

theorem hexNibble_of_hexval {c : Byte} {d : BitVec 4} (h : hexval c = some d) : hexNibble c = d := by
  rw [hexNibble, h, Option.getD_some]

@[simp] theorem hexNibble_hexdigit (d : BitVec 4) : hexNibble (hexdigit d) = d :=
  hexNibble_of_hexval (hexval_hexdigit d)

@[simp] theorem hexdecode_nil : hexdecode [] = [] := rfl

@[simp] theorem hexdecode_singleton (c : Byte) : hexdecode [c] = [] := rfl

@[simp] theorem hexdecode_cons_cons (hi lo : Byte) (C : List Byte) :
    hexdecode (hi :: lo :: C) = (hexNibble hi ++ hexNibble lo) :: hexdecode C := rfl

theorem hexdecode_length : ∀ C : List Byte, (hexdecode C).length = C.length / 2
  | [] | [_] => by simp
  | hi :: lo :: C => by
    simp only [hexdecode_cons_cons, List.length_cons, hexdecode_length C]
    omega

/-- Byte `k` is decoded from the characters of pair `k`, the first of them the high nibble (R97). -/
theorem byteAt_hexdecode : ∀ (C : List Byte) {k : Nat}, k < C.length / 2 →
    byteAt (hexdecode C) k = hexNibble (byteAt C (2 * k)) ++ hexNibble (byteAt C (2 * k + 1))
  | [], _, hk | [_], _, hk => by simp at hk
  | _ :: _ :: _, 0, _ => rfl
  | hi :: lo :: C, k + 1, hk => by
    simp only [List.length_cons] at hk
    exact byteAt_hexdecode C (by omega)

theorem nibbles_toNat (hi lo : BitVec 4) : (hi ++ lo).toNat = 16 * hi.toNat + lo.toNat := by
  rw [BitVec.toNat_append, ← Nat.shiftLeft_add_eq_or_of_lt lo.isLt, Nat.shiftLeft_eq, Nat.mul_comm]

theorem hexdecode_hexRender_append (x : Byte) (C : List Byte) :
    hexdecode (hexRender x ++ C) = x :: hexdecode C := by
  have hx : x.extractLsb' 4 4 ++ x.extractLsb' 0 4 = x := BitVec.extractLsb'_append_extractLsb'
  simp [hexRender, hx]

theorem hexdecode_render (M : List Byte) : hexdecode (M.map hexRender).flatten = M := by
  induction M with
  | nil => rfl
  | cons x M ih => rw [List.map_cons, List.flatten_cons, hexdecode_hexRender_append, ih]

/-! ### The padded message -/

theorem byteAt_append_left {A B : List Byte} {k : Nat} (hk : k < A.length) :
    byteAt (A ++ B) k = byteAt A k := List.getD_append _ _ _ _ hk

theorem byteAt_append_right {A B : List Byte} {k : Nat} (hk : A.length ≤ k) :
    byteAt (A ++ B) k = byteAt B (k - A.length) := List.getD_append_right _ _ _ _ hk

theorem padZeros_cast (n : Nat) : (padZeros n : Int) = (55 - (n : Int)) % 64 :=
  Int.toNat_of_nonneg (Int.emod_nonneg _ (by decide))

@[simp] theorem bytesLE64_length (v : Nat) : (bytesLE64 v).length = 8 := by simp [bytesLE64]

theorem byteAt_bytesLE64 (v : Nat) {k : Nat} (hk : k < 8) :
    (byteAt (bytesLE64 v) k).toNat = v / 256 ^ k % 256 := by
  simp [byteAt, bytesLE64, hk]

/-- The length of what stands before the bit length. -/
theorem padMessage_front_length (M : List Byte) :
    (M ++ [0x80#8] ++ List.replicate (padZeros M.length) 0#8).length =
      M.length + 1 + padZeros M.length := by
  simp only [List.length_append, List.length_singleton, List.length_replicate]

theorem padMessage_length (M : List Byte) :
    (padMessage M).length = M.length + 9 + padZeros M.length := by
  rw [padMessage, List.length_append, padMessage_front_length, bytesLE64_length]
  omega

theorem padMessage_length_blocks (M : List Byte) :
    (padMessage M).length = 64 * ((M.length + 9 + 63) / 64) := by
  have hz := padZeros_cast M.length
  rw [padMessage_length]
  omega

theorem byteAt_padMessage_message (M : List Byte) {k : Nat} (hk : k < M.length) :
    byteAt (padMessage M) k = byteAt M k := by
  simp only [padMessage, List.append_assoc]
  exact byteAt_append_left hk

theorem byteAt_padMessage_marker (M : List Byte) : byteAt (padMessage M) M.length = 0x80#8 := by
  simp only [padMessage, List.append_assoc]
  rw [byteAt_append_right (le_refl _), Nat.sub_self]
  rfl

theorem byteAt_padMessage_zero (M : List Byte) {k : Nat} (hlo : M.length < k)
    (hhi : k + 8 < (padMessage M).length) : byteAt (padMessage M) k = 0#8 := by
  rw [padMessage_length] at hhi
  have hmarked : (M ++ [0x80#8]).length = M.length + 1 := List.length_append
  rw [padMessage, byteAt_append_left (by rw [padMessage_front_length]; omega),
    byteAt_append_right (by omega), hmarked]
  exact List.getD_replicate _ (by omega)

theorem byteAt_padMessage_bitLength (M : List Byte) (k : Nat) :
    byteAt (padMessage M) ((padMessage M).length - 8 + k) =
      byteAt (bytesLE64 (8 * M.length % 2 ^ 64)) k := by
  have hindex : (padMessage M).length - 8 + k = M.length + 1 + padZeros M.length + k := by
    rw [padMessage_length]
    omega
  rw [hindex, padMessage, byteAt_append_right (by rw [padMessage_front_length]; omega),
    padMessage_front_length, Nat.add_sub_cancel_left]

/-! ### The message PAD loads -/

theorem Memory.readBytes_from_zero (m : Memory) (n : Nat) :
    m.readBytes 0 n = (List.range n).map m.read := by
  simp only [Memory.readBytes, Nat.zero_add]

theorem State.message_raw {s : State} (h : s.hexin = false) :
    s.message = (List.range s.msgLen.toNat).map s.msgbuf.read := by
  rw [State.message, if_neg (by simp [h]), Memory.readBytes_from_zero]

theorem State.message_hex {s : State} (h : s.hexin = true) :
    s.message = hexdecode ((List.range s.msgLen.toNat).map s.msgbuf.read) := by
  rw [State.message, if_pos h, Memory.readBytes_from_zero]

theorem State.message_length_raw {s : State} (h : s.hexin = false) :
    s.message.length = s.msgLen.toNat := by
  rw [State.message_raw h, List.length_map, List.length_range]

theorem State.message_length_hex {s : State} (h : s.hexin = true) :
    s.message.length = s.msgLen.toNat / 2 := by
  rw [State.message_hex h, hexdecode_length, List.length_map, List.length_range]

/-- Option 1 makes room for the binding segment after the padded message (R106, R141). -/
theorem State.option_one_room (s : State) :
    (if s.option 1 then 192 else 0) = 192 * (s.opts.getLsbD 0).toNat := by
  change (if s.opts.getLsbD 0 then 192 else 0) = _
  cases s.opts.getLsbD 0 <;> rfl

/-! ### The statements -/

/-- Settles O14: each range of R96 is one branch of `hexval`, whose digit is below 16. -/
theorem hexDigitValues : Obligations.HexDigitValues := by
  intro c
  refine ⟨fun hlo hhi => ?_, fun hlo hhi => ?_, fun hlo hhi => ?_, fun ⟨hdec, hlower, hupper⟩ => ?_⟩
  · rw [hexval_of_decimal hlo hhi, map_toNat_digit (by omega)]
  · rw [hexval_of_lowercase hlo hhi, map_toNat_digit (by omega)]
  · rw [hexval_of_uppercase hlo hhi, map_toNat_digit (by omega)]
  · exact hexval_of_nonHex hdec hlower hupper

/-- Settles O15: hexdecode takes the characters pair by pair, and decoding undoes the rendering of one
byte. -/
theorem hexDecodeOfRender : Obligations.HexDecodeOfRender := by
  refine ⟨fun C _ _ => ⟨hexdecode_length C, fun k hk hi lo hhi hlo => ?_⟩, hexdecode_render⟩
  rw [byteAt_hexdecode C hk, hexNibble_of_hexval hhi, hexNibble_of_hexval hlo, nibbles_toNat]

/-- Settles O16: the padded message is the concatenation of four strings of known lengths. -/
theorem paddedMessageLayout : Obligations.PaddedMessageLayout := by
  intro M
  refine ⟨?_, padMessage_length_blocks M, fun k hk => byteAt_padMessage_message M hk,
    byteAt_padMessage_marker M, fun k hlo hhi => byteAt_padMessage_zero M hlo hhi, fun k hk => ?_⟩
  · rw [padMessage_length, ← padZeros_cast]
    push_cast
    rfl
  · rw [byteAt_padMessage_bitLength, byteAt_bytesLE64 _ hk]

/-- Settles O17: PAD's loading is `message`, whose length is MSG_LEN or half of it, and the rest of the
set-up is written in every state. -/
theorem padSetsUpRun : Obligations.PadSetsUpRun := by
  intro s
  refine ⟨_, rfl, fun _ hraw => ⟨?_, ?_⟩, fun _ hhex => ⟨?_, ?_⟩, rfl, rfl, ?_, rfl, ?_, ?_, rfl, rfl,
    rfl, rfl, rfl, ?_⟩
  · simp [State.message_length_raw hraw]
  · simp [State.message_raw hraw]
  · simp only [State.seqTo_runN, State.message_length_hex hhex, BitVec.toNat_ofNat]
    exact Nat.mod_eq_of_lt (by omega)
  · simp [State.message_hex hhex]
  · simp only [State.seqTo_blockTotal, State.seqTo_work, State.option_one_room]
  all_goals constructor <;> simp

end Sys2Proof.Machine
end

section
/-! SUPPORT. The arithmetic of a round in the source's own wording, the round operations as one update
of the hash state, the 64 rounds as the source's loop, and where a COMPRESS step leaves the sequencer;
and the statements of 41_compression.md about the round operations and COMPRESS. -/

namespace Sys2Proof.Machine

/-! ### A round's arithmetic -/

/-- Bit concatenation is place value: the high part counts in units of the low part's range. -/
theorem append_toNat {m n : Nat} (x : BitVec m) (y : BitVec n) :
    (x ++ y).toNat = x.toNat * 2 ^ n + y.toNat := by
  rw [BitVec.toNat_append, ← Nat.shiftLeft_add_eq_or_of_lt y.isLt, Nat.shiftLeft_eq]

/-- `LE32` is the sum of its bytes by place value (R15). -/
theorem le32_eq_leWord (B : List Byte) (o : Nat) : le32 B o = leWord B o := by
  have hsum : (le32 B o).toNat =
      (byteAt B o).toNat + 256 * (byteAt B (o + 1)).toNat + 65536 * (byteAt B (o + 2)).toNat +
        16777216 * (byteAt B (o + 3)).toNat := by
    simp only [le32, append_toNat]
    omega
  rw [leWord, ← hsum, BitVec.ofNat_toNat, BitVec.setWidth_eq]

/-- The two shifts of R100 make the rotation, for every count below the width. -/
theorem rotl_eq_rotateLeft (x : Word) {c : Nat} (hc : c < 32) : rotl x c = x.rotateLeft c := by
  rw [rotl, BitVec.rotateLeft, Nat.mod_eq_of_lt hc, BitVec.rotateLeftAux]

/-- The common update with T[j], the message word and the rotation in the source's wording (R122, R123). -/
theorem roundUpdate_eq (f : Word) (g : Nat) (j : BitVec 6) (B : List Byte) (h : Quad) :
    roundUpdate f g j B h =
      ⟨h.d,
        h.b + (h.a + f + roundConstants.getD j.toNat 0#32 + leWord B (4 * g)).rotateLeft 7,
        h.b, h.c⟩ := by
  rw [roundUpdate, rotl_eq_rotateLeft _ (by decide), blockWord, le32_eq_leWord, roundConstant]

theorem keepsAllButHash_hs (s : State) (q : Quad) : s.KeepsAllButHash { s with hs := q } :=
  ⟨⟨rfl, rfl, rfl, rfl, fun _ => rfl, rfl⟩, ⟨rfl, rfl, rfl, rfl, rfl, rfl, rfl⟩,
    ⟨rfl, rfl, rfl, rfl, rfl, rfl⟩, ⟨rfl, rfl, rfl, rfl, rfl⟩, rfl, rfl, rfl, rfl⟩

/-! ### The 64 rounds -/

/-- The group of a round index counts the sixteens (R87). -/
theorem roundGroup_ofNat {j : Nat} (hj : j < 64) : (roundGroup (BitVec.ofNat 6 j)).toNat = j / 16 := by
  rw [roundGroup, BitVec.extractLsb'_toNat, BitVec.toNat_ofNat, Nat.shiftRight_eq_div_pow]
  omega

/-- The operation that round `j` decodes to is the source's round `j`: the groups of sixteen rounds are
the source's boundaries 16, 32 and 48. -/
theorem roundOp_eq_sourceRound (B : List Byte) (q : Quad) {j : Nat} (hj : j < 64) :
    roundOp (BitVec.ofNat 6 j) B q = sourceRound B q j := by
  have hindex : (BitVec.ofNat 6 j).toNat = j := Nat.mod_eq_of_lt hj
  rw [roundOp, roundGroup_ofNat hj]
  by_cases hF : j < 16
  · rw [show j / 16 = 0 by omega]
    simp only [roundOpF, roundUpdate_eq, hindex, sourceRound, if_pos hF, Nat.mod_eq_of_lt hF]
  by_cases hG : j < 32
  · rw [show j / 16 = 1 by omega]
    simp only [roundOpG, roundUpdate_eq, hindex, sourceRound, if_neg hF, if_pos hG]
  by_cases hH : j < 48
  · rw [show j / 16 = 2 by omega]
    simp only [roundOpH, roundUpdate_eq, hindex, sourceRound, if_neg hF, if_neg hG, if_pos hH]
  · rw [show j / 16 = 3 by omega]
    simp only [roundOpI, roundUpdate_eq, hindex, sourceRound, if_neg hF, if_neg hG, if_neg hH]

/-- The first `n` rounds are `n` turns of the source's loop (R124). -/
theorem roundsUpTo_eq_foldl (B : List Byte) (h : Quad) :
    ∀ {n : Nat}, n ≤ 64 → roundsUpTo B h n = (List.range n).foldl (sourceRound B) h
  | 0, _ => rfl
  | n + 1, hn => by
    rw [roundsUpTo, roundOp_eq_sourceRound B _ hn, roundsUpTo_eq_foldl B h (Nat.le_of_succ_le hn),
      List.range_succ, List.foldl_append, List.foldl_cons, List.foldl_nil]

/-! ### The move on from COMPRESS -/

theorem State.endOfBlock_endsBlock (s : State) : s.EndsBlock s.endOfBlock := by
  refine ⟨rfl, fun hmore => ?_, fun hlast => ?_⟩
  · rw [State.endOfBlock_phase, if_pos hmore]
  · rw [State.endOfBlock_phase, if_neg (by omega)]

/-- COMPRESS leads to CHAOS when Option 2 is on. -/
theorem State.afterCompress_of_option_two {s : State} (h2 : s.option 2 = true) :
    s.afterCompress.phase = 6#4 ∧ s.afterCompress.blockCnt = s.blockCnt := by
  rw [State.afterCompress, if_pos h2]
  exact ⟨rfl, rfl⟩

/-- COMPRESS leads to HENONMIX when Option 3 is on and Option 2 is off. -/
theorem State.afterCompress_of_option_three {s : State} (h2 : s.option 2 = false)
    (h3 : s.option 3 = true) :
    s.afterCompress.phase = 7#4 ∧ s.afterCompress.blockCnt = s.blockCnt := by
  rw [State.afterCompress, if_neg (by simp [h2]), if_pos h3]
  exact ⟨rfl, rfl⟩

/-- COMPRESS is the block's last step when Options 2 and 3 are off. -/
theorem State.afterCompress_endsBlock {s : State} (h2 : s.option 2 = false) (h3 : s.option 3 = false) :
    s.EndsBlock s.afterCompress := by
  rw [State.afterCompress, if_neg (by simp [h2]), if_neg (by simp [h3])]
  exact s.endOfBlock_endsBlock

/-- Where COMPRESS ends a block does not depend on the hash state it computes. -/
theorem State.compressTail_endsBlock {s : State} (saved rounds : Quad) (h2 : s.option 2 = false)
    (h3 : s.option 3 = false) : s.EndsBlock { s with sv := saved, hs := rounds }.compressTail :=
  State.afterCompress_endsBlock (s := { s with sv := saved, hs := quadAdd rounds saved, inner := .outside })
    h2 h3

/-! ### The statements -/

/-- Settles O21: each round operation replaces HS by the common update with its own `f` and `g`, whatever
the group of its index. -/
theorem roundOperationsUpdateState : Obligations.RoundOperationsUpdateState := by
  intro s j
  exact ⟨fun _ => ⟨_, rfl, keepsAllButHash_hs s _, roundUpdate_eq ..⟩,
    fun _ => ⟨_, rfl, keepsAllButHash_hs s _, roundUpdate_eq ..⟩,
    fun _ => ⟨_, rfl, keepsAllButHash_hs s _, roundUpdate_eq ..⟩,
    fun _ => ⟨_, rfl, keepsAllButHash_hs s _, roundUpdate_eq ..⟩⟩

/-- Settles O22: the rounds are the source's loop, and the step ends with the additive update and the
move that Options 2 and 3 select. -/
theorem compressRunsSourceRounds : Obligations.CompressRunsSourceRounds := by
  intro s
  refine ⟨_, rfl, State.compressTail_sv _, ?_, fun h2 => State.afterCompress_of_option_two h2,
    fun h2 h3 => State.afterCompress_of_option_three h2 h3,
    fun h2 h3 => State.compressTail_endsBlock _ _ h2 h3, ?_, ?_, by simp, by simp, by simp, by simp,
    by simp, by simp, by simp, by simp, by simp, by simp, by simp⟩
  · rw [State.compressTail_hs, roundsUpTo_eq_foldl s.block s.hs (le_refl 64)]
  all_goals constructor <;> simp

end Sys2Proof.Machine
end

section
/-! SUPPORT. The value a big-endian byte string stands for, what serialisation keeps of a number, where
the mixer output holds each group's replacement and the binding segment, and what WORK reads as; and the
statements of 42_cubic_sum.md about the serialisation, the mixer and CUBESUM. -/

namespace Sys2Proof.Machine

/-! ### Big-endian values -/

theorem intBe_concat (B : List Byte) (x : Byte) : intBe (B ++ [x]) = 256 * intBe B + x.toNat := by
  simp [intBe]

theorem intBe_zeros_append (n : Nat) (B : List Byte) :
    intBe (List.replicate n 0#8 ++ B) = intBe B := by
  induction n with
  | zero => rfl
  | succ n ih => exact ih

@[simp] theorem bytesBE_length (k v : Nat) : (bytesBE k v).length = k := by simp [bytesBE]

theorem bytesBE_succ (k v : Nat) :
    bytesBE (k + 1) v = bytesBE k (v / 256) ++ [BitVec.ofNat 8 v] := by
  have hdigit : ∀ i ∈ List.range k, BitVec.ofNat 8 (v / 256 ^ (k + 1 - 1 - i)) =
      BitVec.ofNat 8 (v / 256 / 256 ^ (k - 1 - i)) := fun i hi => by
    have hi := List.mem_range.mp hi
    rw [Nat.div_div_eq_div_mul, ← Nat.pow_succ', show k + 1 - 1 - i = k - 1 - i + 1 by omega]
  rw [bytesBE, List.range_succ, List.map_append, List.map_congr_left hdigit]
  simp [bytesBE]

/-- The low `k` bytes of `v` stand for `v` modulo `256^k`. -/
theorem intBe_bytesBE (k v : Nat) : intBe (bytesBE k v) = v % 256 ^ k := by
  induction k generalizing v with
  | zero => simp [bytesBE, intBe, Nat.mod_one]
  | succ k ih =>
    have hlast : (BitVec.ofNat 8 v).toNat = v % 256 := BitVec.toNat_ofNat ..
    rw [bytesBE_succ, intBe_concat, ih, hlast, Nat.pow_succ', Nat.mod_mul, Nat.add_comm]

/-- The first bytes of a big-endian number are its quotient by the place value of the others. -/
theorem take_bytesBE {N k : Nat} (h : N ≤ k) (v : Nat) :
    (bytesBE k v).take N = bytesBE N (v / 256 ^ (k - N)) := by
  induction k generalizing v with
  | zero => simp [Nat.le_zero.mp h, bytesBE]
  | succ k ih =>
    rcases Nat.lt_or_eq_of_le h with hlt | rfl
    · have hle : N ≤ k := Nat.le_of_lt_succ hlt
      rw [bytesBE_succ, List.take_append_of_le_length (by simpa using hle), ih hle,
        Nat.div_div_eq_div_mul, ← Nat.pow_succ', Nat.succ_sub hle]
    · rw [List.take_of_length_le (by simp), Nat.sub_self, Nat.pow_zero, Nat.div_one]

/-! ### Minimal lengths -/

theorem bitLength_le_iff {v k : Nat} : bitLength v ≤ k ↔ v < 2 ^ k := by
  by_cases hv : v = 0
  · simp [bitLength, hv]
  · rw [bitLength, if_neg hv, Nat.succ_le_iff, Nat.log2_lt hv]

/-- A number's minimal length is the least number of bytes that holds it. -/
theorem byteLength_le_iff {v N : Nat} : byteLength v ≤ N ↔ v < 256 ^ N := by
  have hbits : byteLength v ≤ N ↔ bitLength v ≤ 8 * N := by
    rw [byteLength]
    omega
  rw [hbits, bitLength_le_iff, Nat.pow_mul]

theorem lt_pow_byteLength (v : Nat) : v < 256 ^ byteLength v := byteLength_le_iff.mp le_rfl

theorem byteLength_eq {v k : Nat} (hlo : 256 ^ (k - 1) ≤ v) (hhi : v < 256 ^ k) (hk : 0 < k) :
    byteLength v = k := by
  have hle : byteLength v ≤ k := byteLength_le_iff.mpr hhi
  have hgt : ¬byteLength v ≤ k - 1 := fun h => hlo.not_gt (byteLength_le_iff.mp h)
  omega

/-! ### Serialisation -/

/-- A number that fits is zero-extended, whichever end CUBE_TRUNC keeps (R137). -/
theorem ser_of_fits {N v : Nat} (trunc : CubeTrunc) (h : v < 256 ^ N) :
    ser trunc N v = List.replicate (N - byteLength v) 0#8 ++ bytesBE (byteLength v) v :=
  if_pos (byteLength_le_iff.mpr h)

theorem ser_keepLow_of_overflow {N v : Nat} (h : 256 ^ N ≤ v) :
    ser .keepLow N v = bytesBE N (v % 256 ^ N) :=
  if_neg fun hle => h.not_gt (byteLength_le_iff.mp hle)

theorem ser_keepHigh_of_overflow {N v : Nat} (h : 256 ^ N ≤ v) :
    ser .keepHigh N v = bytesBE N (v / 256 ^ (byteLength v - N)) := by
  have hlong : ¬byteLength v ≤ N := fun hle => h.not_gt (byteLength_le_iff.mp hle)
  rw [ser, if_neg hlong]
  exact take_bytesBE (Nat.le_of_not_le hlong) v

@[simp] theorem ser_length (trunc : CubeTrunc) (N v : Nat) : (ser trunc N v).length = N := by
  rcases Nat.lt_or_ge v (256 ^ N) with hfits | hover
  · have hle : byteLength v ≤ N := byteLength_le_iff.mpr hfits
    simp [ser_of_fits trunc hfits, hle]
  · cases trunc
    · rw [ser_keepLow_of_overflow hover, bytesBE_length]
    · rw [ser_keepHigh_of_overflow hover, bytesBE_length]

theorem intBe_ser_of_fits {N v : Nat} (trunc : CubeTrunc) (h : v < 256 ^ N) :
    intBe (ser trunc N v) = v := by
  rw [ser_of_fits trunc h, intBe_zeros_append, intBe_bytesBE, Nat.mod_eq_of_lt (lt_pow_byteLength v)]

theorem intBe_ser_keepLow (N v : Nat) : intBe (ser .keepLow N v) = v % 256 ^ N := by
  rcases Nat.lt_or_ge v (256 ^ N) with hfits | hover
  · rw [intBe_ser_of_fits _ hfits, Nat.mod_eq_of_lt hfits]
  · rw [ser_keepLow_of_overflow hover, intBe_bytesBE, Nat.mod_mod]

theorem intBe_ser_keepHigh_of_overflow {N v : Nat} (h : 256 ^ N ≤ v) :
    intBe (ser .keepHigh N v) = v / 256 ^ (byteLength v - N) := by
  have hlong : N ≤ byteLength v := Nat.le_of_not_le fun hle => h.not_gt (byteLength_le_iff.mp hle)
  have hkept : v / 256 ^ (byteLength v - N) < 256 ^ N := by
    rw [Nat.div_lt_iff_lt_mul (by positivity), ← Nat.pow_add, Nat.add_sub_cancel' hlong]
    exact lt_pow_byteLength v
  rw [ser_keepHigh_of_overflow h, intBe_bytesBE, Nat.mod_eq_of_lt hkept]

/-! ### Slices -/

theorem slice_length (B : List Byte) (i j : Nat) :
    (slice B i j).length = min (j - i) (B.length - i) := by
  simp [slice]

theorem slice_slice (B : List Byte) {a b j : Nat} (i : Nat) (h : a + j ≤ b) :
    slice (slice B a b) i j = slice B (a + i) (a + j) := by
  rw [slice, slice, slice, List.drop_take, List.drop_drop, List.take_take]
  congr 1
  omega

theorem slice_append_middle (A B C : List Byte) :
    slice (A ++ (B ++ C)) A.length (A.length + B.length) = B := by
  simp [slice]

/-! ### The mixer output -/

theorem cubeGroup_length (P : List Byte) (t : Nat) :
    (cubeGroup P t).length = min 192 (P.length - 192 * t) := by
  rw [cubeGroup, slice_length, Nat.add_sub_cancel_left]

@[simp] theorem groupReplacement_length (trunc : CubeTrunc) (G : List Byte) :
    (groupReplacement trunc G).length = G.length := ser_length ..

@[simp] theorem bindingSegment_length (trunc : CubeTrunc) (P : List Byte) :
    (bindingSegment trunc P).length = 192 := ser_length ..

/-- `R_0 ‖ … ‖ R_{n-1}`, what the mixer puts in place of the first `n` groups (R141). -/
def groupReplacements (trunc : CubeTrunc) (P : List Byte) (n : Nat) : List Byte :=
  ((List.range n).map fun t => groupReplacement trunc (cubeGroup P t)).flatten

theorem cubicMix_eq (trunc : CubeTrunc) (P : List Byte) :
    cubicMix trunc P =
      groupReplacements trunc P ((P.length + 191) / 192) ++ bindingSegment trunc P := rfl

theorem groupReplacements_succ (trunc : CubeTrunc) (P : List Byte) (n : Nat) :
    groupReplacements trunc P (n + 1) =
      groupReplacements trunc P n ++ groupReplacement trunc (cubeGroup P n) := by
  simp [groupReplacements, List.range_succ]

/-- Each group is replaced by a string of its own length, so the replacements of the first groups are as
long as these groups (R139). -/
theorem groupReplacements_length (trunc : CubeTrunc) (P : List Byte) (n : Nat) :
    (groupReplacements trunc P n).length = min (192 * n) P.length := by
  induction n with
  | zero => simp [groupReplacements]
  | succ n ih =>
    rw [groupReplacements_succ, List.length_append, ih, groupReplacement_length, cubeGroup_length]
    omega

theorem groupReplacements_all_length (trunc : CubeTrunc) (P : List Byte) :
    (groupReplacements trunc P ((P.length + 191) / 192)).length = P.length := by
  rw [groupReplacements_length]
  omega

theorem groupReplacements_isPrefix (trunc : CubeTrunc) (P : List Byte) {m n : Nat} (h : m ≤ n) :
    groupReplacements trunc P m <+: groupReplacements trunc P n := by
  induction h with
  | refl => exact List.prefix_rfl
  | step _ ih =>
    rw [groupReplacements_succ]
    exact ih.trans (List.prefix_append ..)

/-- Group `t`'s replacement stands where the group stood (R139, R141). -/
theorem slice_cubicMix_group (trunc : CubeTrunc) {P : List Byte} {t : Nat} (ht : 192 * t < P.length) :
    slice (cubicMix trunc P) (192 * t) (min (192 * t + 192) P.length) =
      groupReplacement trunc (cubeGroup P t) := by
  have hcount : t + 1 ≤ (P.length + 191) / 192 := by omega
  obtain ⟨rest, hrest⟩ := groupReplacements_isPrefix trunc P hcount
  have hbefore : (groupReplacements trunc P t).length = 192 * t := by
    rw [groupReplacements_length]
    omega
  have hend : min (192 * t + 192) P.length =
      (groupReplacements trunc P t).length + (groupReplacement trunc (cubeGroup P t)).length := by
    rw [hbefore, groupReplacement_length, cubeGroup_length]
    omega
  rw [cubicMix_eq, ← hrest, groupReplacements_succ, hend, ← hbefore, List.append_assoc, List.append_assoc]
  exact slice_append_middle ..

theorem slice_cubicMix_binding (trunc : CubeTrunc) (P : List Byte) :
    slice (cubicMix trunc P) P.length (P.length + 192) = bindingSegment trunc P := by
  have hmid := slice_append_middle (groupReplacements trunc P ((P.length + 191) / 192))
    (bindingSegment trunc P) []
  rwa [List.append_nil, groupReplacements_all_length, bindingSegment_length, ← cubicMix_eq] at hmid

/-- A group's cube sum is taken over the message's own sub-blocks at the group's place (R138). -/
theorem cubeSum_subBlocks_cubeGroup (P : List Byte) (t : Nat) :
    cubeSum (subBlocks (cubeGroup P t)) =
      ((List.range (min 192 (P.length - 192 * t) / 64)).map fun u =>
        intBe (slice P (192 * t + 64 * u) (192 * t + 64 * u + 64)) ^ 3).sum := by
  rw [cubeSum, subBlocks, cubeGroup_length, List.map_map]
  refine congrArg List.sum (List.map_congr_left fun u hu => ?_)
  have hu := List.mem_range.mp hu
  rw [Function.comp_apply, cubeGroup, slice_slice P _ (by omega), Nat.add_assoc (192 * t)]

/-- The binding segment of a message of at least one block: only one block alone has no second (R140). -/
theorem bindingSegment_eq (trunc : CubeTrunc) {P : List Byte} (h : 64 ≤ P.length) :
    bindingSegment trunc P =
      ser trunc 192
        (intBe (slice P 0 64) ^ 3 + intBe (if P.length = 64 then slice P 0 64 else slice P 64 128) ^ 3 +
          intBe (slice P (P.length - 64) P.length) ^ 3) := by
  have hone : P.length < 65 ↔ P.length = 64 := by omega
  simp [bindingSegment, cubeSum, hone, Nat.add_assoc]

/-! ### The stream in WORK -/

/-- A read of exactly the stream that WORK holds meets none of the free values above it (R47). -/
theorem State.workBytes_stream (s : State) : s.workBytes 0 s.work.length = s.work := by
  refine List.ext_getElem (by simp [State.workBytes]) fun k _ hk => ?_
  simp [State.workBytes, State.workByte, hk]

/-! ### The statements -/

/-- Settles O18: both settings write a number that fits in full, and of a longer one the remainder or the
quotient by a power of 256. -/
theorem serialisationKeepsOneEnd : Obligations.SerialisationKeepsOneEnd := by
  intro N v
  refine ⟨ser_length .., ser_length .., intBe_ser_keepLow N v, intBe_ser_of_fits .keepHigh,
    fun k hlo hhi hN => ?_⟩
  have hover : 256 ^ N ≤ v := (Nat.pow_le_pow_right (by decide) (by omega)).trans hlo
  rw [intBe_ser_keepHigh_of_overflow hover, byteLength_eq hlo hhi (by omega)]

/-- Settles O19: the output is the groups' replacements, each of its group's length, and the binding
segment after them. -/
theorem mixerOutputLayout : Obligations.MixerOutputLayout := by
  intro trunc P hblock _
  refine ⟨?_, fun t ht => ?_, ?_⟩
  · rw [cubicMix_eq, List.length_append, groupReplacements_all_length, bindingSegment_length]
  · rw [slice_cubicMix_group trunc ht, groupReplacement, cubeGroup_length, cubeSum_subBlocks_cubeGroup]
  · rw [slice_cubicMix_binding, bindingSegment_eq trunc hblock]

/-- Settles O20: BLOCK_TOTAL counts the blocks of the stream and of the binding segment to come, so the
operation reads exactly the stream. -/
theorem cubesumReplacesStream : Obligations.CubesumReplacesStream := by
  intro s hlen
  have hread : 64 * s.blockTotal.toNat - 192 = s.work.length := by omega
  refine ⟨_, rfl, ?_, rfl, rfl, ?_, ?_, rfl, rfl, rfl, rfl, rfl, rfl, rfl, rfl, ?_⟩
  · rw [State.seqTo_work, hread, State.workBytes_stream]
  all_goals constructor <;> simp

end Sys2Proof.Machine
end

section
/-! SUPPORT. The logistic orbit as iterates of one step, the cells of the chaos table, the substitution
byte by byte, and where a CHAOS step leaves the sequencer; and the statement of 43_chaos_sbox.md about
CHAOS. -/

namespace Sys2Proof.Machine

/-! ### The orbit and the table -/

/-- The floored modulo is a remainder, so it lies below its modulus (R12). -/
theorem f64FloorMod_lt (w : F64) {m : Nat} (hm : 0 < m) : f64FloorMod w m < m := by
  have hlt : f64Floor w % (m : Int) < m := Int.emod_lt_of_pos _ (Int.natCast_pos.mpr hm)
  rw [f64FloorMod]
  omega

/-- The orbit leaves its start out: entry `k` is the value after step `k + 1` (R152). -/
theorem logisticOrbit_getElem (rate : F64) {n k : Nat} (x : F64)
    (hk : k < (logisticOrbit rate n x).length) :
    (logisticOrbit rate n x)[k] = (logisticNext rate)^[k + 1] x := by
  induction n generalizing x k with
  | zero => exact absurd hk (Nat.not_lt_zero k)
  | succ n ih =>
    cases k with
    | zero => rfl
    | succ k => exact ih (logisticNext rate x) (Nat.lt_of_succ_lt_succ hk)

/-- The value of a cell fits its byte, so the byte loses nothing of it (R152). -/
theorem chaosCell_toNat (x : F64) :
    (chaosCell x).toNat = f64FloorMod (fmul x (f64OfNat 256)) 256 := by
  rw [chaosCell, BitVec.toNat_ofNat]
  exact Nat.mod_eq_of_lt (f64FloorMod_lt _ (by decide))

theorem chaosCells_getElem (B : List Byte) {n k : Nat} (hk : k < (chaosCells B n).length) :
    (chaosCells B n)[k] = chaosCell ((logisticNext (chaosRate B))^[k + 1] (chaosSeed B)) := by
  simp only [chaosCells, List.getElem_map, logisticOrbit_getElem]

theorem chaosTable_getElem (B : List Byte) (k : Fin 256) :
    (chaosTable B)[k] = chaosCell ((logisticNext (chaosRate B))^[k.val + 1] (chaosSeed B)) := by
  simp only [chaosTable, Fin.getElem_fin, Vector.getElem_mk, List.getElem_toArray,
    chaosCells_getElem]

/-! ### The substitution -/

theorem chaosState_get (ct : Vector Byte 256) (h : Quad) (r : Fin 4) :
    (chaosState ct h).get r = chaosSub ct (h.get r) := by
  fin_cases r <;> rfl

/-- Each byte of the substituted word is the table's entry for the byte at the same place (R154). -/
theorem extractLsb'_chaosSub (ct : Vector Byte 256) (w : Word) (m : Fin 4) :
    (chaosSub ct w).extractLsb' (8 * m.val) 8 = chaosEntry ct (w.extractLsb' (8 * m.val) 8) := by
  simp only [chaosSub, BitVec.extractLsb'_append_eq_ite]
  fin_cases m <;> simp

/-! ### The move on from CHAOS -/

/-- CHAOS leads to HENONMIX when Option 3 is on. -/
theorem State.afterChaos_of_option_three {s : State} (h3 : s.option 3 = true) :
    s.afterChaos.phase = 7#4 ∧ s.afterChaos.blockCnt = s.blockCnt := by
  rw [State.afterChaos, if_pos h3]
  exact ⟨rfl, rfl⟩

/-- CHAOS is the block's last step when Option 3 is off. -/
theorem State.afterChaos_endsBlock {s : State} (h3 : s.option 3 = false) :
    s.EndsBlock s.afterChaos := by
  rw [State.afterChaos, if_neg (by simp [h3])]
  exact s.endOfBlock_endsBlock

/-- Where CHAOS ends a block does not depend on the table and the hash state it computes. -/
theorem State.substituted_afterChaos_endsBlock {s : State} (ct : Vector Byte 256) (h : Quad)
    (h3 : s.option 3 = false) : s.EndsBlock { s with ct := ct, hs := h }.afterChaos :=
  State.afterChaos_endsBlock (s := { s with ct := ct, hs := h }) h3

/-! ### The statement -/

/-- Settles O24: the table's cells are the orbit's values after each step, the state's bytes are looked
up in it one by one, and the move is the one that Option 3 selects. -/
theorem chaosSubstitutesState : Obligations.ChaosSubstitutesState := by
  intro s
  refine ⟨_, rfl, fun k => ?_, fun r m => ?_, fun h3 => State.afterChaos_of_option_three h3,
    fun h3 => State.substituted_afterChaos_endsBlock _ _ h3,
    ?_, ?_, by simp, by simp, by simp, by simp, by simp, by simp, by simp, ?_⟩
  · rw [State.afterChaos_ct, chaosTable_getElem, chaosCell_toNat]
    rfl
  · rw [State.afterChaos_hs, State.afterChaos_ct, chaosState_get, extractLsb'_chaosSub]
    rfl
  all_goals constructor <;> simp

end Sys2Proof.Machine
end

section
/-! SUPPORT. The Henon orbit as iterates of one step on the pair of coordinates, the cells of the Henon
array, and the mixing digit by digit; and the statements of 44_henon.md about HENONGEN and HENONMIX. -/

namespace Sys2Proof.Machine

/-! ### The orbit and the array -/

/-- The orbit leaves its start out: entry `k` is the x coordinate after step `k + 1` (R167). -/
theorem henonOrbit_getElem (a b : F64) {n k : Nat} (x y : F64)
    (hk : k < (henonOrbit a b n x y).length) :
    (henonOrbit a b n x y)[k] = ((Function.uncurry (henonNext a b))^[k + 1] (x, y)).1 := by
  induction n generalizing x y k with
  | zero => exact absurd hk (Nat.not_lt_zero k)
  | succ n ih =>
    cases k with
    | zero => rfl
    | succ k =>
      exact ih (henonNext a b x y).1 (henonNext a b x y).2 (Nat.lt_of_succ_lt_succ hk)

/-- The value of a cell fits its hex digit, so the digit loses nothing of it (R167). -/
theorem henonCell_toNat (range x : F64) :
    (henonCell range x).toNat = f64FloorMod (fmul x range) 16 := by
  rw [henonCell, BitVec.toNat_ofNat]
  exact Nat.mod_eq_of_lt (f64FloorMod_lt _ (by decide))

theorem henonArray_getElem (p : HenonParams) (k : Fin 32) :
    (henonArray p)[k] =
      henonCell p.range
        ((Function.uncurry (henonNext p.a p.b))^[k.val + 1] (f64Dec 1 1, f64Dec 1 1)).1 := by
  simp only [henonArray, henonCells, henonXs, Fin.getElem_fin, Vector.getElem_mk,
    List.getElem_toArray, List.getElem_map, henonOrbit_getElem]

/-! ### The mixing -/

theorem henonState_get (ha : Vector (BitVec 4) 32) (h : Quad) (r : Fin 4) :
    (henonState ha h).get r = henonMix ha r (h.get r) := by
  fin_cases r <;> rfl

/-- Each hex digit of the mixed word is the product for the digit at the same place (R170). -/
theorem extractLsb'_henonMix (ha : Vector (BitVec 4) 32) (row : Fin 4) (w : Word) (i : Fin 8) :
    (henonMix ha row w).extractLsb' (28 - 4 * i.val) 4 = henonDigit ha row w i := by
  simp only [henonMix, BitVec.extractLsb'_append_eq_ite]
  fin_cases i <;> simp

/-- A product of two hex digits in four bits is their product modulo 16 (R170). -/
theorem henonDigit_toNat (ha : Vector (BitVec 4) 32) (row : Fin 4) (w : Word) (i : Fin 8) :
    (henonDigit ha row w i).toNat =
      (w.extractLsb' (28 - 4 * i.val) 4).toNat * (ha[8 * row.val + i.val]'(by omega)).toNat % 16 :=
  BitVec.toNat_mul ..

/-- Where HENONMIX ends a block does not depend on the hash state it computes. -/
theorem State.mixed_endOfBlock_endsBlock (s : State) (h : Quad) :
    s.EndsBlock { s with hs := h }.endOfBlock :=
  { s with hs := h }.endOfBlock_endsBlock

/-! ### The statements -/

/-- Settles O25: the array's cells are those of the orbit's x coordinates after each step. -/
theorem henongenFillsArray : Obligations.HenongenFillsArray := by
  intro s
  refine ⟨_, rfl, fun k => ?_, rfl, rfl, ?_, ?_, rfl, rfl, rfl, rfl, rfl, rfl, rfl, rfl, ?_⟩
  · rw [State.seqTo_ha, henonArray_getElem, henonCell_toNat]
    rfl
  all_goals constructor <;> simp

/-- Settles O26: each digit is mixed with its own entry of the array, and the step is always the block's
last one. -/
theorem henonmixMultipliesDigits : Obligations.HenonmixMultipliesDigits := by
  intro s
  refine ⟨_, rfl, fun r i => ?_, s.mixed_endOfBlock_endsBlock _, ?_, ?_, ?_, rfl, rfl, ?_⟩
  · rw [State.endOfBlock_hs, henonState_get, extractLsb'_henonMix, henonDigit_toNat]
  all_goals constructor <;> simp

end Sys2Proof.Machine
end

section
/-! SUPPORT. A word by its four bytes and four words by their sixteen, what FINAL_SBOX makes of the
pre-digest, and which character of the rendering stands for which nibble; and the statements of
45_final_sbox.md about FINAL, OUTPUT and DIGEST_HEX. -/

namespace Sys2Proof.Machine

/-! ### Words and their bytes -/

theorem byteAt_of_lt {B : List Byte} {k : Nat} (hk : k < B.length) : byteAt B k = B[k] :=
  List.getD_eq_getElem _ _ hk

/-- Part of a part of a word is a part of the word. -/
theorem extractLsb'_extractLsb' {w : Nat} (x : BitVec w) (start : Nat) {off len len' : Nat}
    (h : off + len ≤ len') :
    (x.extractLsb' start len').extractLsb' off len = x.extractLsb' (start + off) len := by
  refine BitVec.eq_of_getLsbD_eq fun i hi => ?_
  have hin : off + i < len' := by omega
  simp only [BitVec.getLsbD_extractLsb', hi, hin, decide_true, Bool.true_and, Nat.add_assoc]

/-- A word is determined by its bytes. -/
theorem word_eq_of_bytes_eq {v w : Word}
    (h : ∀ m : Fin 4, v.extractLsb' (8 * m.val) 8 = w.extractLsb' (8 * m.val) 8) : v = w := by
  refine BitVec.eq_of_getLsbD_eq fun i hi => ?_
  have hbyte := congrArg (·.getLsbD (i % 8)) (h ⟨i / 8, by omega⟩)
  simpa only [BitVec.getLsbD_extractLsb', Nat.div_add_mod, Nat.mod_lt i (by decide : 0 < 8), decide_true,
    Bool.true_and] using hbyte

theorem Quad.eq_of_get_eq {p q : Quad} (h : ∀ k, p.get k = q.get k) : p = q := by
  cases p
  cases q
  rw [Quad.mk.injEq]
  exact ⟨h 0, h 1, h 2, h 3⟩

theorem quadBytes_length (q : Quad) : (quadBytes q).length = 16 := rfl

/-- Byte `4k + m` of the pre-digest is bits 8m+7:8m of word `k` (R181). -/
theorem byteAt_quadBytes (q : Quad) (k m : Fin 4) :
    byteAt (quadBytes q) (4 * k.val + m.val) = (q.get k).extractLsb' (8 * m.val) 8 := by
  fin_cases k <;> fin_cases m <;> rfl

theorem quadOfBytes_get (B : List Byte) (k : Fin 4) : (quadOfBytes B).get k = le32 B (4 * k.val) := by
  fin_cases k <;> rfl

/-- The bytes of four words are read back as these words. -/
theorem quadOfBytes_quadBytes (q : Quad) : quadOfBytes (quadBytes q) = q := by
  refine Quad.eq_of_get_eq fun k => word_eq_of_bytes_eq fun m => ?_
  rw [quadOfBytes_get, extractLsb'_le32, byteAt_quadBytes]

/-! ### The final substitution -/

theorem finalBytes_getElem (table : Vector Byte 256) (h : Quad) (k m : Fin 4)
    (hi : 4 * k.val + m.val < (finalBytes table h).length) :
    (finalBytes table h)[4 * k.val + m.val] =
      finalEntry table ((h.get k).extractLsb' (8 * m.val) 8) := by
  simp only [finalBytes, List.getElem_map, ← byteAt_of_lt, byteAt_quadBytes]

/-! ### The digest -/

theorem State.digestBytes_of_option_four {s : State} (h4 : s.option 4 = true) :
    s.digestBytes = s.dg.toList := if_pos h4

theorem State.digestBytes_of_not_option_four {s : State} (h4 : s.option 4 = false) :
    s.digestBytes = quadBytes s.hs := if_neg (by simp [h4])

/-! ### The rendering -/

theorem hexdigit_toNat (d : BitVec 4) :
    (hexdigit d).toNat = if d.toNat < 10 then 0x30 + d.toNat else 0x61 + d.toNat - 10 := by
  revert d
  decide

/-- Character `2i` of a rendering is the digit of the high nibble of byte `i`, and character `2i + 1`
that of the low one (R98). -/
theorem byteAt_render : ∀ (B : List Byte) {i : Nat} (n : Fin 2), i < B.length →
    byteAt (B.map hexRender).flatten (2 * i + n.val) =
      hexdigit ((byteAt B i).extractLsb' (4 * (1 - n.val)) 4)
  | _ :: _, 0, 0, _ | _ :: _, 0, 1, _ => rfl
  | _ :: B, i + 1, n, hi => by
    rw [show 2 * (i + 1) + n.val = 2 * i + n.val + 2 by omega]
    exact byteAt_render B n (Nat.lt_of_succ_lt_succ hi)

/-- The characters of the digest's rendering by word, byte and nibble (R184). -/
theorem byteAt_digestHex (q : Quad) (k m : Fin 4) (n : Fin 2) :
    byteAt (digestHex q) (2 * (4 * k.val + m.val) + n.val) =
      hexdigit ((q.get k).extractLsb' (8 * m.val + 4 * (1 - n.val)) 4) := by
  rw [digestHex, byteAt_render _ n (by rw [quadBytes_length]; omega), byteAt_quadBytes,
    extractLsb'_extractLsb' _ _ (by omega)]

/-- Bits 8c+7:8c of DIGEST_HEXj are character `4j + c` (R35). -/
theorem extractLsb'_digestHexWord (q : Quad) (j : Fin 8) (c : Fin 4) :
    (digestHexWord q j).extractLsb' (8 * c.val) 8 = byteAt (digestHex q) (4 * j.val + c.val) :=
  extractLsb'_le32 ..

/-! ### The statements -/

/-- Settles O27: FINAL looks each byte of the pre-digest up on its own, and writes no field but DG and
PHASE. -/
theorem finalSubstitutesPreDigest : Obligations.FinalSubstitutesPreDigest := by
  intro s
  refine ⟨_, rfl, fun k m => finalBytes_getElem .., rfl, ?_, ?_, rfl, rfl, rfl, rfl, rfl, ?_, ?_⟩
  all_goals constructor <;> simp

/-- Settles O28: with Option 4 the digest's bytes are DG's, without it the hash state's, which are read
back as the hash state. -/
theorem outputWritesDigest : Obligations.OutputWritesDigest := by
  intro s
  refine ⟨_, rfl, fun h4 k => ?_, fun h4 => ?_, rfl, rfl, rfl, rfl, rfl, rfl, rfl, rfl, rfl, ?_, ?_, rfl,
    rfl, rfl, ?_⟩
  · rw [State.digestBytes_of_option_four h4, quadOfBytes_get, le32_eq_leWord]
  · rw [State.digestBytes_of_not_option_four h4, quadOfBytes_quadBytes]
  all_goals constructor <;> simp

/-- Settles O29: DIGEST_HEX's word and byte at a nibble's place hold the character at that place in the
rendering, and the character is the nibble's digit. -/
theorem digestHexIsLowercaseRendering : Obligations.DigestHexIsLowercaseRendering := by
  intro q k m n x
  have hplace : 4 * (2 * k.val + m.val / 2) + (2 * (m.val % 2) + n.val) =
      2 * (4 * k.val + m.val) + n.val := by omega
  rw [extractLsb'_digestHexWord q ⟨2 * k.val + m.val / 2, by omega⟩ ⟨2 * (m.val % 2) + n.val, by omega⟩,
    hplace, byteAt_digestHex, hexdigit_toNat]

end Sys2Proof.Machine
end

section
/-! SUPPORT. The STATUS word by its fields, the START word of a command word's own fields, what START and
CLEAR make of the state and which parts of it they keep, and what a CMD write of each row of R82 answers;
and the statements of 46_dispatcher.md about the host commands. -/

namespace Sys2Proof.Machine

/-! ### The STATUS word -/

/-- The place value of each STATUS field (R22). -/
theorem State.statusWord_toNat (s : State) :
    s.statusWord.toNat =
      s.busy.toNat + 2 * s.done.toNat + 4 * s.err.toNat + 16 * s.errcode.toNat +
        256 * s.phase.toNat + 4096 * s.opts.toNat + 65536 * s.hexin.toNat := by
  simp only [State.statusWord, append_toNat, BitVec.toNat_ofBool, BitVec.toNat_ofNat]
  omega

/-! ### The START word -/

theorem ofBool_cmdHexin (w : Word) : BitVec.ofBool (cmdHexin w) = w.extractLsb' 12 1 := by
  ext i hi
  simp [cmdHexin, show i = 0 by omega]

/-- A command word is its four fields (R81). -/
theorem cmdWord_eq_fields (w : Word) :
    cmdReserved w ++ BitVec.ofBool (cmdHexin w) ++ cmdOpts w ++ cmdOpcode w = w := by
  have hhigh : cmdReserved w ++ BitVec.ofBool (cmdHexin w) = w.extractLsb' 12 20 := by
    rw [ofBool_cmdHexin]
    exact BitVec.extractLsb'_append_extractLsb'_eq_extractLsb' rfl
  have hupper : w.extractLsb' 12 20 ++ cmdOpts w = w.extractLsb' 8 24 :=
    BitVec.extractLsb'_append_extractLsb'_eq_extractLsb' rfl
  rw [hhigh, hupper]
  exact BitVec.extractLsb'_append_extractLsb'

/-- A word of START's row is the START word of its own OPTS and HEXIN fields (R82, R90). -/
theorem startWord_of_startPattern {w : Word} (h : w &&& 0xFFFFE0FF#32 = 0x00000001#32) :
    startWord (cmdOpts w) (cmdHexin w) = w := by
  obtain ⟨hop, hres⟩ := startPattern_iff.mp h
  rw [startWord, ← hop, ← hres]
  exact cmdWord_eq_fields w

/-! ### The commands -/

theorem exec_start_idle {s : State} (h : s.busy = false) (o : BitVec 4) (x : Bool) :
    exec (.start o x) s = .next (s.startRun o x) := if_neg (by simp [h])

theorem exec_start_busy {s : State} (h : s.busy = true) (o : BitVec 4) (x : Bool) :
    exec (.start o x) s = .next (s.raise .busy (startWord o x)) := if_pos h

/-- An accepted START keeps everything but the STATUS fields and ERRINFO (R192). -/
theorem State.startRun_keeps (s : State) (o : BitVec 4) (x : Bool) :
    s.KeepsInputs (s.startRun o x) ∧ s.KeepsHidden (s.startRun o x) ∧
      s.KeepsResults (s.startRun o x) ∧ s.KeepsHost (s.startRun o x) := by
  refine ⟨?_, ?_, ?_, ?_⟩ <;> constructor <;> simp

/-- An error keeps everything but the STATUS fields and ERRINFO (R220). -/
theorem State.raise_keeps (s : State) (e : ErrorKind) (info : Word) :
    s.KeepsInputs (s.raise e info) ∧ s.KeepsHidden (s.raise e info) ∧
      s.KeepsResults (s.raise e info) ∧ s.KeepsHost (s.raise e info) := by
  refine ⟨?_, ?_, ?_, ?_⟩ <;> constructor <;> simp

theorem State.startRun_statusWord_toNat (s : State) (o : BitVec 4) (x : Bool) :
    (s.startRun o x).statusWord.toNat = 0x101 + 4096 * o.toNat + 65536 * x.toNat := by
  simp [State.statusWord_toNat]

theorem State.softReset_statusWord (s : State) : s.softReset.statusWord = 0#32 :=
  BitVec.eq_of_toNat_eq (by simp [State.statusWord_toNat])

theorem State.softReset_keepsInputs (s : State) : s.KeepsInputs s.softReset := by
  constructor <;> simp

/-! ### The CMD write by the row of its word -/

theorem writeCmd_of_decodeCmd {w : Word} {i : Instr} (h : decodeCmd w = .ok i) (s : State) :
    writeCmd w s = exec i s := by
  simp only [writeCmd, h]

theorem writeCmd_nop (s : State) : writeCmd 0x00000000#32 s = .next s :=
  writeCmd_of_decodeCmd (decodeCmd_eq_nop_iff.mpr rfl) s

theorem writeCmd_clear (s : State) : writeCmd 0x00000002#32 s = .next s.softReset :=
  writeCmd_of_decodeCmd (decodeCmd_eq_clear_iff.mpr rfl) s

theorem writeCmd_start {w : Word} (h : w &&& 0xFFFFE0FF#32 = 0x00000001#32) (s : State) :
    writeCmd w s = exec (.start (cmdOpts w) (cmdHexin w)) s :=
  writeCmd_of_decodeCmd (decodeCmd_eq_start_iff.mpr ⟨h, rfl, rfl⟩) s

/-! ### The statements -/

/-- Settles O5: the zero word is NOP's row of R82, and NOP answers the state it is given. -/
theorem nopChangesNothing : Obligations.NopChangesNothing :=
  ⟨decodeCmd_eq_nop_iff.mpr rfl, fun _ => rfl⟩

/-- Settles O6: the CMD write is a START with the word's own fields, and an idle engine accepts it. -/
theorem startAcceptedWhileIdle : Obligations.StartAcceptedWhileIdle := by
  rintro s _ _ v hidle hstart rfl rfl
  have haccept := exec_start_idle hidle (cmdOpts v) (cmdHexin v)
  exact ⟨_, haccept, (writeCmd_start hstart s).trans haccept, s.startRun_statusWord_toNat _ _, rfl, rfl,
    s.startRun_keeps _ _⟩

/-- Settles O7: a busy engine raises BUSY with the START word, which is the command word itself. -/
theorem startRefusedWhileBusy : Obligations.StartRefusedWhileBusy := by
  rintro s _ _ v hbusy hstart rfl rfl
  have hrefuse : exec (.start (cmdOpts v) (cmdHexin v)) s = .next (s.raise .busy v) := by
    rw [exec_start_busy hbusy, startWord_of_startPattern hstart]
  exact ⟨_, hrefuse, (writeCmd_start hstart s).trans hrefuse, rfl, rfl, rfl, hbusy, rfl, rfl, rfl, rfl,
    s.raise_keeps _ _⟩

/-- Settles O8: CLEAR is the soft reset, which is the same update in every state. -/
theorem clearResetsAllButInputs : Obligations.ClearResetsAllButInputs := by
  intro s
  refine ⟨s.softReset, rfl, s.softReset_statusWord, rfl, rfl, rfl, rfl, rfl, fun k => ?_, rfl, rfl,
    s.softReset_keepsInputs⟩
  fin_cases k <;> rfl

/-- Settles O9: one clause for each row of R82, START's split by BUSY, and one for the words of no row. -/
theorem commandWriteOrder : Obligations.CommandWriteOrder := by
  intro s v
  refine ⟨?nop, ?clear, fun hstart hbusy => ?refused, fun hstart hidle => ?accepted,
    fun hnop hclear hstart => ?illegal⟩
  case nop =>
    rintro rfl
    exact writeCmd_nop s
  case clear =>
    rintro rfl
    exact ⟨_, writeCmd_clear s, s.softReset_statusWord, s.softReset_keepsInputs⟩
  case refused =>
    obtain ⟨t, -, hwrite⟩ := startRefusedWhileBusy s _ _ v hbusy hstart rfl rfl
    exact ⟨t, hwrite⟩
  case accepted =>
    exact ⟨_, (writeCmd_start hstart s).trans (exec_start_idle hidle _ _), rfl, rfl, rfl, rfl⟩
  case illegal =>
    exact ⟨_, writeCmd_illegal hnop hclear hstart s, rfl, rfl, rfl, rfl, rfl, rfl, rfl, rfl,
      s.raise_keeps _ _⟩

end Sys2Proof.Machine
end

section
/-! SUPPORT. CHECK as the raise of the error it finds, and which error it finds for a message longer than
MSGBUF; and the statement of 60_exceptions.md about the LENGTH error. -/

namespace Sys2Proof.Machine

/-- A CHECK that finds an error raises it, and does nothing else (R99, R220). -/
theorem exec_check_of_checkError {s : State} {e : ErrorKind} {info : Word}
    (h : s.checkError = some (e, info)) : exec .check s = .next (s.raise e info) := by
  simp only [exec, execCheck, h]

/-- The length is tested first, so the input mode and the characters do not matter (R224, R230). -/
theorem State.checkError_of_length {s : State} (h : s.cfg.msgBufBytes < s.msgLen.toNat) :
    s.checkError = some (.length, s.msgLen) :=
  if_neg (Nat.not_le_of_gt h)

/-- Settles O11: CHECK raises LENGTH, an ending error, with MSG_LEN as its information word. -/
theorem checkRaisesLength : Obligations.CheckRaisesLength := by
  intro s hlong
  have hraise : exec .check s = .next (s.raise .length s.msgLen) :=
    exec_check_of_checkError (State.checkError_of_length hlong)
  exact ⟨_, hraise, rfl, rfl, rfl, rfl, rfl, rfl, rfl, rfl, s.raise_keeps _ _⟩

end Sys2Proof.Machine
end

section
/-! SUPPORT. The START word and the round index as codes; and the statements of 30_encoding.md about the
decoder and the encoder as inverses. -/

namespace Sys2Proof.Machine

/-! ### The START word's own fields -/

theorem cmdOpcode_startWord (o : BitVec 4) (x : Bool) : cmdOpcode (startWord o x) = 0x01#8 :=
  BitVec.extractLsb'_append_eq_right

theorem cmdReserved_startWord (o : BitVec 4) (x : Bool) : cmdReserved (startWord o x) = 0#19 := by
  revert o x
  decide

theorem cmdOpts_startWord (o : BitVec 4) (x : Bool) : cmdOpts (startWord o x) = o := by
  revert o x
  decide

theorem cmdHexin_startWord (o : BitVec 4) (x : Bool) : cmdHexin (startWord o x) = x := by
  revert o x
  decide

theorem decodeCmd_startWord (o : BitVec 4) (x : Bool) : decodeCmd (startWord o x) = .ok (.start o x) :=
  decodeCmd_eq_start_iff.mpr
    ⟨startPattern_iff.mpr ⟨cmdOpcode_startWord o x, cmdReserved_startWord o x⟩,
      (cmdOpts_startWord o x).symm, (cmdHexin_startWord o x).symm⟩

/-! ### The round index -/

/-- A round index decodes to the one operation whose group it lies in (R87). -/
theorem decodeRound_cases (j : BitVec 6) :
    (roundGroup j = 0#2 ∧ decodeRound j = .roundF j) ∨ (roundGroup j = 1#2 ∧ decodeRound j = .roundG j) ∨
      (roundGroup j = 2#2 ∧ decodeRound j = .roundH j) ∨
        (roundGroup j = 3#2 ∧ decodeRound j = .roundI j) := by
  revert j
  decide

theorem decodeRound_wf (j : BitVec 6) : (decodeRound j).wf = true := by
  rcases decodeRound_cases j with ⟨hg, hd⟩ | ⟨hg, hd⟩ | ⟨hg, hd⟩ | ⟨hg, hd⟩ <;> simp [hd, Instr.wf, hg]

theorem encode_decodeRound (j : BitVec 6) : encode (decodeRound j) = .round j := by
  rcases decodeRound_cases j with ⟨-, hd⟩ | ⟨-, hd⟩ | ⟨-, hd⟩ | ⟨-, hd⟩ <;> rw [hd] <;> rfl

/-! ### The statements -/

/-- Settles O1: a command's word decodes by its row of R82, a phase code by the table of R86, and a round
index by the group that well-formedness puts it in. -/
theorem decodeOfEncode : Obligations.DecodeOfEncode := by
  intro i hwf
  cases i with
  | start o x => exact decodeCmd_startWord o x
  | roundF j | roundG j | roundH j | roundI j =>
    have hgroup := beq_iff_eq.mp hwf
    simp only [encode, decode, decodeRound, hgroup]
    rfl
  | _ => rfl

/-- Settles O2: the word of a command is that command's own row, and the phase codes and the groups of
round indices are disjoint. -/
theorem encodeOfDecode : Obligations.EncodeOfDecode := by
  intro c i hdec
  cases c with
  | cmd w =>
    rcases decodeCmd_eq_ok_iff.mp hdec with ⟨rfl, rfl⟩ | ⟨rfl, rfl⟩ | ⟨hstart, rfl⟩
    · exact ⟨rfl, rfl⟩
    · exact ⟨rfl, rfl⟩
    · exact ⟨congrArg Code.cmd (startWord_of_startPattern hstart), rfl⟩
  | phase p =>
    rcases decodePhase_cases hdec with ⟨rfl, rfl⟩ | ⟨rfl, rfl⟩ | ⟨rfl, rfl⟩ | ⟨rfl, rfl⟩ | ⟨rfl, rfl⟩ |
      ⟨rfl, rfl⟩ | ⟨rfl, rfl⟩ | ⟨rfl, rfl⟩ | ⟨rfl, rfl⟩ <;> exact ⟨rfl, rfl⟩
  | round j =>
    cases hdec
    exact ⟨encode_decodeRound j, decodeRound_wf j⟩

/-- Settles O4: the table's words, evaluated. -/
theorem wordsOfTheSpecDecode : Obligations.WordsOfTheSpecDecode := by
  unfold Obligations.WordsOfTheSpecDecode
  decide

end Sys2Proof.Machine
end

section
/-! SUPPORT. Which error CHECK finds in hex mode, and that it finds none exactly when its conditions hold;
and the statements of 40_codec_padding.md section 2 about CHECK. -/

namespace Sys2Proof.Machine

/-- In hex mode the parity of the length is tested before the characters (R230). -/
theorem State.checkError_of_odd {s : State} (hfits : s.msgLen.toNat ≤ s.cfg.msgBufBytes)
    (hhex : s.hexin = true) (hodd : s.msgLen.toNat % 2 = 1) :
    s.checkError = some (.format, s.msgLen) := by
  rw [State.checkError, if_pos hfits, if_pos hhex, if_pos hodd]

/-- The lowest character that is no hex character is the one CHECK reports (R230). -/
theorem State.checkError_of_nonHex {s : State} {k : Nat} (hfits : s.msgLen.toNat ≤ s.cfg.msgBufBytes)
    (hhex : s.hexin = true) (heven : s.msgLen.toNat % 2 = 0) (hk : k < s.msgLen.toNat)
    (hbad : hexval (s.msgbuf.read k) = none)
    (hgood : ∀ i < k, (hexval (s.msgbuf.read i)).isSome = true) :
    s.checkError = some (.format, BitVec.ofNat 32 k) := by
  have hfirst : firstNonHex s.msgbuf 0 s.msgLen.toNat = some k :=
    firstNonHex_some.mpr ⟨Nat.zero_le k, by omega, hbad, fun i _ hi => hgood i hi⟩
  rw [State.checkError, if_pos hfits, if_pos hhex, if_neg (by omega), hfirst, Option.map_some]

/-- CHECK finds no error exactly when its conditions hold (R99). -/
theorem State.checkError_eq_none_iff {s : State} : s.checkError = none ↔ s.CheckPasses := by
  rw [State.checkError, State.CheckPasses]
  by_cases hfits : s.msgLen.toNat ≤ s.cfg.msgBufBytes
  · by_cases hhex : s.hexin = true
    · by_cases hodd : s.msgLen.toNat % 2 = 1
      · simp [hfits, hhex, hodd]
      · have heven : s.msgLen.toNat % 2 = 0 := by omega
        simp [hfits, hhex, heven, firstNonHex_none]
    · simp [hfits, hhex]
  · simp [hfits]

theorem exec_check_of_passes {s : State} (h : s.CheckPasses) :
    exec .check s = .next (s.seqTo 2#4 0#32) := by
  simp only [exec, execCheck, State.checkError_eq_none_iff.mpr h]

/-- Moving the sequencer keeps everything but the position (R14, R40). -/
theorem State.seqTo_keeps (s : State) (p : BitVec 4) (i : Word) :
    s.KeepsInputs (s.seqTo p i) ∧ s.KeepsFlags (s.seqTo p i) ∧ s.KeepsHidden (s.seqTo p i) ∧
      s.KeepsHost (s.seqTo p i) := by
  refine ⟨?_, ?_, ?_, ?_⟩ <;> constructor <;> simp

/-! ### The statements -/

/-- Settles O10: a CHECK that finds no error is the move to (PAD, 0). -/
theorem checkPassesToPad : Obligations.CheckPassesToPad := by
  intro s hpasses
  obtain ⟨hinputs, hflags, hhidden, hhost⟩ := s.seqTo_keeps 2#4 0#32
  exact ⟨_, exec_check_of_passes hpasses, rfl, rfl, hinputs, hflags, hhidden, rfl, rfl, rfl, hhost⟩

/-- Settles O12: CHECK raises FORMAT, an ending error, with MSG_LEN. -/
theorem checkRaisesFormatOnOddLength : Obligations.CheckRaisesFormatOnOddLength := by
  intro s hfits hhex hodd
  exact ⟨_, exec_check_of_checkError (State.checkError_of_odd hfits hhex hodd), rfl, rfl, rfl, rfl, rfl,
    rfl, rfl, rfl, s.raise_keeps _ _⟩

/-- Settles O13: CHECK raises FORMAT with the index, which is below MSG_LEN and so fits its word. -/
theorem checkRaisesFormatOnLowestNonHex : Obligations.CheckRaisesFormatOnLowestNonHex := by
  intro s k hfits hhex heven hk hbad hgood
  have hinfo : (BitVec.ofNat 32 k).toNat = k := Nat.mod_eq_of_lt (hk.trans s.msgLen.isLt)
  exact ⟨_, exec_check_of_checkError (State.checkError_of_nonHex hfits hhex heven hk hbad hgood), rfl, rfl,
    hinfo, rfl, rfl, rfl, rfl, rfl, s.raise_keeps _ _⟩

end Sys2Proof.Machine
end

section
/-! SUPPORT. The step of an aligned read or write of a register that the window names, the register at each
offset of the map, and a word's bits by place value; and the statements of 10_state.md and 20_memory.md
about STATUS, reads of the named registers, and IRQ_EN, MSG_LEN and MSGBUF writes. -/

namespace Sys2Proof.Machine

/-! ### The step of a transaction, by the register it names -/

theorem State.BusTurn.step_read_reg {s : State} {off : Word} {rest : List HostOp} {r : Reg}
    (h : s.BusTurn (.read .w32 off) rest) (halign : off.toNat % 4 = 0)
    (hr : regAt s.cfg off.toNat = r) (hin : r ≠ .outside) :
    step s = .next { (readReg r (s.hostGoes rest)).2 with
      answer := some (.okayData (readReg r (s.hostGoes rest)).1) } := by
  have hreg : regAt (s.hostGoes rest).cfg off.toNat = r := by simpa using hr
  rw [h.step_read, busRead_admitted (admitted_w32 halign) (hreg ▸ hin), hreg]

theorem State.BusTurn.step_write_reg {s : State} {off v : Word} {rest : List HostOp} {r : Reg}
    (h : s.BusTurn (.write .w32 off v) rest) (halign : off.toNat % 4 = 0)
    (hr : regAt s.cfg off.toNat = r) (hin : r ≠ .outside) :
    step s = writeReg r off v { s.hostGoes rest with answer := some .okay } := by
  have hreg : regAt (s.hostGoes rest).cfg off.toNat = r := by simpa using hr
  rw [h.step_write, busWrite_admitted v (admitted_w32 halign) (hreg ▸ hin), hreg]

/-! ### The register files of the map -/

theorem regAt_hstate (c : Config) (k : Fin 4) : regAt c (0x020 + 4 * k.val) = .hstate k := by
  fin_cases k <;> rfl

theorem regAt_digest (c : Config) (k : Fin 4) : regAt c (0x030 + 4 * k.val) = .digest k := by
  fin_cases k <;> rfl

theorem regAt_digestHex (c : Config) (k : Fin 8) : regAt c (0x040 + 4 * k.val) = .digestHex k := by
  fin_cases k <;> rfl

/-! ### Reads without a side effect -/

/-- A read of register `r` of the engine in `s` returns `v`, whatever events the host has still to issue,
and has no side effect. -/
def State.Shows (s : State) (r : Reg) (v : Word) : Prop :=
  r ≠ .outside ∧ ∀ rest, readReg r (s.hostGoes rest) = (v, s.hostGoes rest)

theorem State.BusTurn.step_read_shown {s : State} {off v : Word} {rest : List HostOp} {r : Reg}
    (h : s.BusTurn (.read .w32 off) rest) (halign : off.toNat % 4 = 0)
    (hr : regAt s.cfg off.toNat = r) (hshow : s.Shows r v) :
    step s = .next { s.hostGoes rest with answer := some (.okayData v) } := by
  obtain ⟨hin, hread⟩ := hshow
  rw [h.step_read_reg halign hr hin, hread]

theorem State.shows_status (s : State) : s.Shows .status s.statusWord :=
  ⟨nofun, fun rest => by simp [readReg, State.statusWord]⟩

theorem State.shows_irqEn (s : State) : s.Shows .irqEn s.irqEnWord :=
  ⟨nofun, fun rest => by simp [readReg, State.irqEnWord]⟩

theorem State.shows_hstate {s : State} (k : Fin 4) (h : s.busy = false) :
    s.Shows (.hstate k) (s.hs.get k) :=
  ⟨nofun, fun rest => by simp [readReg, h]⟩

/-- While BUSY = 1 a read of HSTATE takes a free value (R33). -/
theorem readReg_hstate_busy {s : State} (k : Fin 4) (h : s.busy = true) :
    readReg (.hstate k) s = (Config.hstateDraw s.draws, { s with draws := s.draws + 1 }) := if_pos h

theorem State.shows_plain (s : State) :
    s.Shows .cmd 0#32 ∧ s.Shows .msgLen s.msgLen ∧ s.Shows .errinfo s.errinfo ∧
      s.Shows .caps (BitVec.ofNat 32 s.cfg.msgBufBytes) ∧ s.Shows .blockCnt s.blockCnt ∧
        s.Shows .blockTotal s.blockTotal ∧ (∀ k, s.Shows (.digest k) (s.digest.get k)) ∧
          ∀ k, s.Shows (.digestHex k) (digestHexWord s.digest k) := by
  refine ⟨⟨nofun, ?_⟩, ⟨nofun, ?_⟩, ⟨nofun, ?_⟩, ⟨nofun, ?_⟩, ⟨nofun, ?_⟩, ⟨nofun, ?_⟩,
    fun k => ⟨nofun, ?_⟩, fun k => ⟨nofun, ?_⟩⟩ <;> simp [readReg]

/-! ### The bits of a word -/

/-- A bit of a word is the digit at its place value. -/
theorem toNat_getLsbD {n : Nat} (w : BitVec n) (i : Nat) : (w.getLsbD i).toNat = w.toNat / 2 ^ i % 2 :=
  Nat.toNat_testBit w.toNat i

theorem getLsbD_eq_of_toNat {n : Nat} {w : BitVec n} {i : Nat} {b : Bool}
    (h : w.toNat / 2 ^ i % 2 = b.toNat) : w.getLsbD i = b := by
  rw [← toNat_getLsbD] at h
  cases b <;> simpa using h

theorem toNat_extractLsb' {n : Nat} (w : BitVec n) (start len : Nat) :
    (w.extractLsb' start len).toNat = w.toNat / 2 ^ start % 2 ^ len := by
  rw [BitVec.extractLsb'_toNat, Nat.shiftRight_eq_div_pow]

/-- IRQ_EN takes bits 1:0 of the word written (R28). -/
theorem low_two_bits (v : Word) :
    0#30 ++ BitVec.ofBool (v.getLsbD 1) ++ BitVec.ofBool (v.getLsbD 0) = v &&& 3#32 := by
  have hmask : (v &&& 3#32).toNat = v.toNat % 4 :=
    (BitVec.toNat_and ..).trans (Nat.and_two_pow_sub_one_eq_mod v.toNat 2)
  refine BitVec.eq_of_toNat_eq ?_
  simp only [append_toNat, BitVec.toNat_ofBool, toNat_getLsbD, BitVec.toNat_ofNat, hmask]
  omega

/-! ### The bytes of a word written -/

theorem bytesLE_getElem (v : Word) (m : Fin 4) :
    (bytesLE v)[m.val]'m.isLt = v.extractLsb' (8 * m.val) 8 := by
  fin_cases m <;> rfl

/-! ### Writes to an idle engine -/

/-- A MSG_LEN write to an idle engine stores the word. -/
theorem writeReg_msgLen_idle {s : State} (off v : Word) (h : s.busy = false) :
    writeReg .msgLen off v s = .next { s with msgLen := v } := if_neg (by simp [h])

/-- A MSGBUF write to an idle engine stores the word's bytes. -/
theorem writeReg_msgbuf_idle {s : State} (k : Nat) (off v : Word) (h : s.busy = false) :
    writeReg (.msgbuf k) off v s =
      .next { s with msgbuf := s.msgbuf.writeBytes (4 * k) (bytesLE v) } := if_neg (by simp [h])

/-! ### The statements -/

/-- Settles O30: each offset names its register, which shows its field without a side effect. -/
theorem registerReadsReturnState : Obligations.RegisterReadsReturnState := by
  intro s rest off v hturn hreg
  suffices hstep : step s = .next { s.hostGoes rest with answer := some (.okayData v) } from
    ⟨_, hstep, rfl, by simp, hostGoes_answered_keeps s rest _ _⟩
  obtain ⟨hcmd, hlen, hinfo, hcaps, hcnt, htotal, hdigest, hhex⟩ := s.shows_plain
  rcases hreg with ⟨rfl, rfl⟩ | ⟨rfl, rfl⟩ | ⟨rfl, rfl⟩ | ⟨rfl, rfl⟩ | ⟨rfl, rfl⟩ | ⟨rfl, rfl⟩ |
    ⟨rfl, rfl⟩ | ⟨rfl, rfl⟩ | ⟨k, hidle, hoff, rfl⟩ | ⟨k, hoff, rfl⟩ | ⟨k, hoff, rfl⟩
  · exact hturn.step_read_shown rfl rfl hcmd
  · exact hturn.step_read_shown rfl rfl s.shows_status
  · exact hturn.step_read_shown rfl rfl hlen
  · exact hturn.step_read_shown rfl rfl s.shows_irqEn
  · exact hturn.step_read_shown rfl rfl hinfo
  · exact hturn.step_read_shown rfl rfl hcaps
  · exact hturn.step_read_shown rfl rfl hcnt
  · exact hturn.step_read_shown rfl rfl htotal
  · exact hturn.step_read_shown (by omega) (hoff ▸ regAt_hstate s.cfg k) (State.shows_hstate k hidle)
  · exact hturn.step_read_shown (by omega) (hoff ▸ regAt_digest s.cfg k) (hdigest k)
  · exact hturn.step_read_shown (by omega) (hoff ▸ regAt_digestHex s.cfg k) (hhex k)

/-- Settles O31: the read takes a free value, which only counts the draws on. -/
theorem hstateReadWhileBusyCompletes : Obligations.HstateReadWhileBusyCompletes := by
  intro s rest off k hturn hbusy hoff
  have hstep := hturn.step_read_reg (r := .hstate k) (by omega) (hoff ▸ regAt_hstate s.cfg k) nofun
  rw [readReg_hstate_busy k (by simpa using hbusy)] at hstep
  exact ⟨_, _, hstep, rfl, hostGoes_answered_keeps s rest _ _⟩

/-- Settles O32: each field is the part of the word at its place value, and the other parts are 0. -/
theorem statusWordFields : Obligations.StatusWordFields := by
  intro s
  have hword := s.statusWord_toNat
  have hbusy := Bool.toNat_le s.busy
  have hdone := Bool.toNat_le s.done
  have herr := Bool.toNat_le s.err
  have hhexin := Bool.toNat_le s.hexin
  refine ⟨getLsbD_eq_of_toNat ?_, getLsbD_eq_of_toNat ?_, getLsbD_eq_of_toNat ?_, getLsbD_eq_of_toNat ?_,
    BitVec.eq_of_toNat_eq ?_, BitVec.eq_of_toNat_eq ?_, BitVec.eq_of_toNat_eq ?_, getLsbD_eq_of_toNat ?_,
    BitVec.eq_of_toNat_eq ?_⟩
  all_goals
    simp only [toNat_extractLsb', hword, Bool.toNat_false, BitVec.toNat_ofNat]
    omega

/-- Settles O34: the step sets the two enables from the word's two low bits, and the line is a function of
them and the flags. -/
theorem irqEnableWriteMovesLine : Obligations.IrqEnableWriteMovesLine := by
  intro s rest v hturn
  refine ⟨_, hturn.step_write_reg (r := .irqEn) rfl rfl nofun, low_two_bits v, ?_, by simp, by simp, by simp,
    by simp, ?_, ?_, ?_, by simp⟩
  · simp [State.irq]
  all_goals constructor <;> simp

/-- Settles O38: an idle engine stores the word as it is. -/
theorem msgLenStoresEveryValue : Obligations.MsgLenStoresEveryValue := by
  intro s rest v hturn hidle
  refine ⟨_, (hturn.step_write_reg (r := .msgLen) rfl rfl nofun).trans
    (writeReg_msgLen_idle _ v (by simpa using hidle)), rfl, by simp, by simp, by simp, by simp, by simp,
    ?_, ?_, ?_, by simp⟩
  all_goals constructor <;> simp

/-- Settles O36: the word's four bytes are written in place, and a later read of the word returns a word
of the same four bytes. -/
theorem msgbufWriteThenRead : Obligations.MsgbufWriteThenRead := by
  intro s rest off v k hturn hidle hoff hk
  have hstep := (hturn.step_write_reg (r := .msgbuf k) (by omega) (hoff ▸ regAt_msgbuf_word hk) nofun).trans
    (writeReg_msgbuf_idle k off v (by simpa using hidle))
  have hbytes : ∀ m : Fin 4, ((s.hostGoes rest).msgbuf.writeBytes (4 * k) (bytesLE v)).read (4 * k + m.val) =
      v.extractLsb' (8 * m.val) 8 := fun m => by
    rw [Memory.read_writeBytes_inside _ _ _ _ m.isLt, bytesLE_getElem]
  refine ⟨_, hstep, hbytes, fun a ha => ?others, fun hwf => ?canonical, by simp, by simp, by simp, by simp,
    by simp, ?_, ?_, ?_, by simp, fun u rest' hbuf hcfg huturn => ?readback⟩
  case others =>
    rw [Memory.read_writeBytes_outside _ _ _ _ ha, State.hostGoes_msgbuf]
  case canonical => exact Memory.writeBytes_wf (by simpa using hwf) _ _
  case readback =>
    have huk : 4 * k < u.cfg.msgBufBytes := by simpa [hcfg] using hk
    obtain ⟨w, x, hw, hanswer, hx, -⟩ := msgbufReadReturnsWord u rest' off k huturn hoff huk
    have hxv : x = v := word_eq_of_bytes_eq fun m => by rw [hx, hbuf, hbytes]
    exact ⟨w, hw, hxv ▸ hanswer⟩
  all_goals constructor <;> simp

end Sys2Proof.Machine
end

section
/-! SUPPORT. Everything a host event can do, as one relation. -/

namespace Sys2Proof.Machine

/-! ### The register map, backwards -/

theorem lowReg_eq_cmd {off : Nat} (h : lowReg off = .cmd) : off = 0x000 := by
  unfold lowReg at h
  split at h
  case h_1 => rfl
  all_goals cases h

theorem lowReg_eq_msgLen {off : Nat} (h : lowReg off = .msgLen) : off = 0x008 := by
  unfold lowReg at h
  split at h
  case h_3 => rfl
  all_goals cases h

/-- A register that is neither a MSGBUF word nor reserved stands below 0x1000 (R20). -/
theorem regAt_eq_low {c : Config} {off : Nat} {r : Reg} (h : regAt c off = r) (hbuf : ∀ k, r ≠ .msgbuf k)
    (hres : r ≠ .reserved) (hout : r ≠ .outside) : lowReg off = r := by
  unfold regAt at h
  split at h
  · exact h
  split at h
  · exact absurd h.symm (hbuf _)
  split at h
  · exact absurd h.symm hres
  · exact absurd h.symm hout

theorem off_eq_cmd {c : Config} {off : Word} (h : regAt c off.toNat = .cmd) : off = 0x000#32 :=
  BitVec.eq_of_toNat_eq (lowReg_eq_cmd (regAt_eq_low h nofun nofun nofun))

theorem off_eq_msgLen {c : Config} {off : Word} (h : regAt c off.toNat = .msgLen) : off = 0x008#32 :=
  BitVec.eq_of_toNat_eq (lowReg_eq_msgLen (regAt_eq_low h nofun nofun nofun))

/-! ### What an answered write can do -/

/-- The host's inputs that a write may not change during a run: MSG_LEN and MSGBUF (R68). -/
def State.InputOffset (s : State) (off : Word) : Prop :=
  off = 0x008#32 ∨ 0x1000 ≤ off.toNat ∧ off.toNat < 0x1000 + s.cfg.msgBufBytes

/-- `s.WriteEffect off v t`: the aligned 32-bit write of `v` at offset `off`, answered OKAY in `s`, can make
`t` of the engine. -/
inductive State.WriteEffect (s : State) (off v : Word) : State → Prop
  /-- CLEAR (R194). -/
  | clear : off = 0x000#32 → v = 0x00000002#32 → s.WriteEffect off v s.softReset
  /-- An accepted START (R192). -/
  | start : off = 0x000#32 → v &&& 0xFFFFE0FF#32 = 0x00000001#32 → s.busy = false →
      s.WriteEffect off v (s.startRun (cmdOpts v) (cmdHexin v))
  /-- A continuing error: BUSY, ILLEGAL or BUSY_WRITE (R193, R226, R68). -/
  | error (e : ErrorKind) (info : Word) : e.ending = false →
      (off = 0x000#32 ∨ s.busy = true ∧ s.InputOffset off) → s.WriteEffect off v (s.raise e info)
  /-- A write to STATUS (R23). -/
  | status : s.WriteEffect off v (s.clearFlags v)
  /-- A write to IRQ_EN (R28). -/
  | irqEn : s.WriteEffect off v { s with doneIe := v.getLsbD 0, errIe := v.getLsbD 1 }
  /-- A write to MSG_LEN while BUSY = 0 (R27). -/
  | msgLen : s.busy = false → s.WriteEffect off v { s with msgLen := v }
  /-- A write to MSGBUF while BUSY = 0 (R66). -/
  | msgbuf (k : Nat) : s.busy = false → 4 * k + 4 ≤ s.cfg.msgBufBytes →
      s.WriteEffect off v { s with msgbuf := s.msgbuf.writeBytes (4 * k) (bytesLE v) }
  /-- NOP, and a write that is ignored (R191, R36). -/
  | ignored : s.WriteEffect off v s

theorem writeCmd_effect {v : Word} {s t : State} (h : writeCmd v s = .next t) :
    s.WriteEffect 0x000#32 v t := by
  rcases writeCmd_cases h with ⟨i, hdec, hexec⟩ | ⟨-, rfl⟩
  · rcases decodeCmd_eq_ok_iff.mp hdec with ⟨-, rfl⟩ | ⟨rfl, rfl⟩ | ⟨hstart, rfl⟩
    · cases hexec
      exact .ignored
    · cases hexec
      exact .clear rfl rfl
    · rcases execStart_cases hexec with ⟨-, rfl⟩ | ⟨hidle, rfl⟩
      · exact .error .busy _ rfl (.inl rfl)
      · exact .start rfl hstart hidle
  · exact .error .illegal v rfl (.inl rfl)

/-- A MSGBUF word lies within the buffer as a whole (R8, R64). -/
theorem msgbuf_word_fits {c : Config} {off k : Nat} (halign : off % 4 = 0) (h : regAt c off = .msgbuf k) :
    4 * k + 4 ≤ c.msgBufBytes := by
  obtain ⟨hlo, hhi, rfl⟩ := regAt_msgbuf h
  have hwords := c.msgBufBytes_legal.1
  omega

theorem writeReg_effect {off v : Word} {s t : State} (halign : off.toNat % 4 = 0)
    (h : writeReg (regAt s.cfg off.toNat) off v s = .next t) : s.WriteEffect off v t := by
  cases hr : regAt s.cfg off.toNat with
  | cmd =>
    rw [hr] at h
    exact off_eq_cmd hr ▸ writeCmd_effect h
  | msgLen =>
    rw [hr] at h
    cases hbusy : s.busy with
    | true =>
      cases (writeReg_busy off v hbusy (.inl rfl)).symm.trans h
      exact .error .busyWrite off rfl (.inr ⟨hbusy, .inl (off_eq_msgLen hr)⟩)
    | false =>
      cases (writeReg_msgLen_idle off v hbusy).symm.trans h
      exact .msgLen hbusy
  | msgbuf k =>
    rw [hr] at h
    obtain ⟨hlo, hhi, -⟩ := regAt_msgbuf hr
    cases hbusy : s.busy with
    | true =>
      cases (writeReg_busy off v hbusy (.inr ⟨k, rfl⟩)).symm.trans h
      exact .error .busyWrite off rfl (.inr ⟨hbusy, .inr ⟨hlo, hhi⟩⟩)
    | false =>
      cases (writeReg_msgbuf_idle k off v hbusy).symm.trans h
      exact .msgbuf k hbusy (msgbuf_word_fits halign hr)
  | status =>
    rw [hr] at h
    cases h
    exact .status
  | irqEn =>
    rw [hr] at h
    cases h
    exact .irqEn
  | outside =>
    rw [hr] at h
    cases h
  | _ =>
    rw [hr] at h
    cases h
    exact .ignored

theorem admitted_iff {width : Width} {off : Word} :
    admitted width off = true ↔ width = .w32 ∧ off.toNat % 4 = 0 := by
  simp [admitted]

/-- Everything a host event can do: one that is not a write answered OKAY changes the port's answer, the
queue and the draws only, or drives the reset input. -/
theorem hostEvent_effect {op : HostOp} {s t : State} (h : hostEvent op s = .next t) :
    (∃ p a d, t = { s with pending := p, answer := a, draws := d }) ∨
      (∃ off v, op = .write .w32 off v ∧ s.rst = false ∧
        State.WriteEffect { s with answer := some .okay } off v t) ∨
        ∃ level, op = .rst level ∧ t = s.driveRst level := by
  rcases hostEvent_cases h with ⟨p, a, d, -, ht⟩ | ⟨width, off, v, rfl, hrst, hadm, hwrite⟩ | hdrive
  · exact .inl ⟨p, a, d, ht⟩
  · obtain ⟨rfl, halign⟩ := admitted_iff.mp hadm
    exact .inr (.inl ⟨off, v, rfl, hrst, writeReg_effect halign hwrite⟩)
  · exact .inr (.inr hdrive)

end Sys2Proof.Machine
end

section
/-! SUPPORT. Which flags and results a stage operation and a round leave; and the statements about what no
event, or only a named event, changes: the configuration, the host's inputs, DIGEST, BUSY, DONE and ERR, and
a run under way. -/

namespace Sys2Proof.Machine

/-! ### What operations keep -/

/-- A round operation replaces HS (R124). -/
theorem exec_decodeRound (j : BitVec 6) (s : State) :
    exec (decodeRound j) s = .next { s with hs := roundOp j s.block s.hs } := by
  rcases decodeRound_cases j with ⟨hg, hd⟩ | ⟨hg, hd⟩ | ⟨hg, hd⟩ | ⟨hg, hd⟩ <;>
    simp only [hd, roundOp, hg] <;> rfl

/-- Of the stage operations only CHECK and OUTPUT write a flag, and only OUTPUT writes DIGEST (R25, R34). -/
theorem exec_stage_keeps {p : BitVec 4} {i : Instr} {s t : State} (hdec : decodePhase p = .ok i)
    (hcheck : p ≠ 1#4) (houtput : p ≠ 9#4) (h : exec i s = .next t) :
    s.KeepsFlags t ∧ t.digest = s.digest := by
  rcases decodePhase_cases hdec with ⟨rfl, rfl⟩ | ⟨-, rfl⟩ | ⟨-, rfl⟩ | ⟨-, rfl⟩ | ⟨-, rfl⟩ | ⟨-, rfl⟩ |
    ⟨-, rfl⟩ | ⟨-, rfl⟩ | ⟨rfl, rfl⟩
  case inl => exact absurd rfl hcheck
  case inr.inr.inr.inr.inr.inr.inr.inr => exact absurd rfl houtput
  all_goals
    cases h
    exact ⟨by constructor <;> simp, by simp⟩

/-- CHECK writes neither DIGEST nor DONE (R25, R34). -/
theorem exec_check_keeps {s t : State} (h : exec .check s = .next t) :
    t.digest = s.digest ∧ t.done = s.done := by
  rcases execCheck_cases h with ⟨e, info, -, rfl⟩ | ⟨-, rfl⟩ <;> exact ⟨rfl, rfl⟩

theorem eq_check_of_decodePhase {i : Instr} (hdec : decodePhase 1#4 = .ok i) : i = .check := by
  cases hdec
  rfl

theorem eq_output_of_decodePhase {i : Instr} (hdec : decodePhase 9#4 = .ok i) : i = .output := by
  cases hdec
  rfl

/-! ### The statements -/

/-- Settles O54: CHECK and START by their cases, and every other operation by the update it is. -/
theorem operationsLeaveInputs : Obligations.OperationsLeaveInputs := by
  intro i s t h
  cases i with
  | start opts hexin =>
    rcases execStart_cases h with ⟨-, rfl⟩ | ⟨-, rfl⟩ <;> constructor <;> simp
  | check =>
    rcases execCheck_cases h with ⟨e, info, -, rfl⟩ | ⟨-, rfl⟩ <;> constructor <;> simp
  | _ =>
    cases h
    constructor <;> simp

theorem State.WriteEffect.cfg {s t : State} {off v : Word} (h : s.WriteEffect off v t) : t.cfg = s.cfg := by
  cases h <;> rfl

theorem hostEvent_cfg {op : HostOp} {s t : State} (h : hostEvent op s = .next t) : t.cfg = s.cfg := by
  rcases hostEvent_effect h with ⟨p, a, d, rfl⟩ | ⟨off, v, -, -, hwrite⟩ | ⟨level, -, rfl⟩
  · rfl
  · exact hwrite.cfg
  · cases level <;> rfl

/-- Settles O53: host events, operations and the end of a COMPRESS step each keep it. -/
theorem configurationNeverChanges : Obligations.ConfigurationNeverChanges := by
  intro s t h
  rcases step_cases h with ⟨op, rest, -, hhost⟩ | ⟨i, -, -, hexec⟩ | ⟨j, -, hexec⟩ | ⟨-, rfl⟩ | ⟨-, rfl⟩
  · simpa using hostEvent_cfg hhost
  · exact (exec_sameHost hexec).cfg
  · exact (exec_sameHost hexec).cfg
  · exact s.compressTail_cfg
  · rfl

/-- Settles O55: of the host's events only CLEAR and an assertion of reset write DIGEST, and of the
sequencer's only OUTPUT. -/
theorem digestWrittenByOutputOnly : Obligations.DigestWrittenByOutputOnly := by
  intro s t h hchanged
  rcases step_cases h with ⟨op, rest, hturn, hhost⟩ | ⟨i, hturn, hdec, hexec⟩ | ⟨j, -, hexec⟩ | ⟨-, rfl⟩ |
    ⟨-, rfl⟩
  case inl =>
    have hturn : s.HostTurn op rest := turn_host_iff.mp hturn
    rcases hostEvent_effect hhost with ⟨p, a, d, rfl⟩ | ⟨off, v, rfl, hrst, hwrite⟩ | ⟨level, rfl, rfl⟩
    · simp at hchanged
    · cases hwrite
      case clear hoff hv => exact .inr (.inl ⟨rest, hoff ▸ hv ▸ hturn, by simpa using hrst⟩)
      all_goals simp at hchanged
    · cases level
      · simp at hchanged
      · exact .inr (.inr ⟨rest, hturn⟩)
  case inr.inl =>
    refine .inl ⟨turn_sequencer_iff.mp hturn, ?_⟩
    by_contra houtput
    by_cases hcheck : s.phase = 1#4
    · rw [hcheck] at hdec
      cases eq_check_of_decodePhase hdec
      exact hchanged (by simpa using (exec_check_keeps hexec).1)
    · exact hchanged (by simpa using (exec_stage_keeps hdec hcheck houtput hexec).2)
  case inr.inr.inl =>
    cases (exec_decodeRound j _).symm.trans hexec
    exact absurd rfl hchanged
  all_goals simp at hchanged

/-- Settles O56: the sequencer steps only while BUSY = 1, and of the host's events only START raises it. -/
theorem busyRisesByStartOnly : Obligations.BusyRisesByStartOnly := by
  intro s t h hidle hbusy
  rcases step_cases h with ⟨op, rest, hturn, hhost⟩ | ⟨i, hturn, -, -⟩ | ⟨j, -, hexec⟩ | ⟨-, rfl⟩ | ⟨-, rfl⟩
  case inl =>
    have hturn : s.HostTurn op rest := turn_host_iff.mp hturn
    rcases hostEvent_effect hhost with ⟨p, a, d, rfl⟩ | ⟨off, v, rfl, hrst, hwrite⟩ | ⟨level, rfl, rfl⟩
    · simp [hidle] at hbusy
    · cases hwrite
      case start hoff hv _ => exact ⟨v, rest, ⟨hoff ▸ hturn, by simpa using hrst⟩, hv⟩
      all_goals simp [hidle] at hbusy
    · cases level <;> simp [hidle] at hbusy
  case inr.inl =>
    have hrun := ((running_iff s).mp (turn_sequencer_iff.mp hturn).2.1).1
    simp [hidle] at hrun
  case inr.inr.inl =>
    cases (exec_decodeRound j _).symm.trans hexec
    simp [hidle] at hbusy
  all_goals simp [hidle] at hbusy

/-- No host event sets DONE. -/
theorem hostEvent_done {op : HostOp} {s t : State} (h : hostEvent op s = .next t) (hd : s.done = false) :
    t.done = false := by
  rcases hostEvent_effect h with ⟨p, a, d, rfl⟩ | ⟨off, v, -, -, hwrite⟩ | ⟨level, -, rfl⟩
  · exact hd
  · cases hwrite <;> simp [hd]
  · cases level <;> simp [hd]

/-- DONE rises in an OUTPUT step only (R25). -/
theorem step_done {s t : State} (h : step s = .next t) (hd : s.done = false) (hd' : t.done = true) :
    s.SequencerTurn ∧ s.phase = 9#4 := by
  rcases step_cases h with ⟨op, rest, -, hhost⟩ | ⟨i, hturn, hdec, hexec⟩ | ⟨j, -, hexec⟩ | ⟨-, rfl⟩ | ⟨-, rfl⟩
  case inl =>
    simp [hostEvent_done hhost (by simpa using hd)] at hd'
  case inr.inl =>
    refine ⟨turn_sequencer_iff.mp hturn, ?_⟩
    by_contra houtput
    by_cases hcheck : s.phase = 1#4
    · rw [hcheck] at hdec
      cases eq_check_of_decodePhase hdec
      simp [(exec_check_keeps hexec).2, hd] at hd'
    · simp [(exec_stage_keeps hdec hcheck houtput hexec).1.done, hd] at hd'
  case inr.inr.inl =>
    cases (exec_decodeRound j _).symm.trans hexec
    simp [hd] at hd'
  all_goals simp [hd] at hd'

/-- The places where ERR rises (R221). -/
theorem step_err {s t : State} (h : step s = .next t) (he : s.err = false) (he' : t.err = true) :
    (s.SequencerTurn ∧ s.phase = 1#4) ∨
      ∃ off v rest, s.BusTurn (.write .w32 off v) rest ∧
        (off = 0x000#32 ∨ s.busy = true ∧ s.InputOffset off) := by
  rcases step_cases h with ⟨op, rest, hturn, hhost⟩ | ⟨i, hturn, hdec, hexec⟩ | ⟨j, -, hexec⟩ | ⟨-, rfl⟩ |
    ⟨-, rfl⟩
  case inl =>
    have hturn : s.HostTurn op rest := turn_host_iff.mp hturn
    rcases hostEvent_effect hhost with ⟨p, a, d, rfl⟩ | ⟨off, v, rfl, hrst, hwrite⟩ | ⟨level, rfl, rfl⟩
    · simp [he] at he'
    · cases hwrite
      case error hplace =>
        exact .inr ⟨off, v, rest, ⟨hturn, by simpa using hrst⟩, by simpa [State.InputOffset] using hplace⟩
      all_goals simp [he] at he'
    · cases level <;> simp [he] at he'
  case inr.inl =>
    refine .inl ⟨turn_sequencer_iff.mp hturn, ?_⟩
    by_contra hcheck
    by_cases houtput : s.phase = 9#4
    · rw [houtput] at hdec
      cases eq_output_of_decodePhase hdec
      cases hexec
      simp [he] at he'
    · simp [(exec_stage_keeps hdec hcheck houtput hexec).1.err, he] at he'
  case inr.inr.inl =>
    cases (exec_decodeRound j _).symm.trans hexec
    simp [he] at he'
  all_goals simp [he] at he'

/-- Settles O57: DONE and ERR each by the events that raise them. -/
theorem whoSetsDoneAndErr : Obligations.WhoSetsDoneAndErr :=
  fun _ _ h => ⟨step_done h, step_err h⟩

/-- Settles O51: while BUSY = 1 no START is accepted and MSG_LEN and MSGBUF are not stored to, and CLEAR and
an assertion of reset are excluded. -/
theorem hostCannotDisturbRun : Obligations.HostCannotDisturbRun := by
  intro s t op rest hturn hbusy hstep hassert hclear
  rw [hturn.step_eq] at hstep
  rcases hostEvent_effect hstep with ⟨p, a, d, rfl⟩ | ⟨off, v, rfl, hrst, hwrite⟩ | ⟨level, rfl, rfl⟩
  case' inr.inl => cases hwrite
  case' inr.inr => cases level
  case inr.inl.clear hoff hv => exact absurd (hoff ▸ hv ▸ rfl) hclear
  case inr.inl.start hidle => simp [hbusy] at hidle
  case inr.inl.msgLen hidle => simp [hbusy] at hidle
  case inr.inl.msgbuf hidle _ => simp [hbusy] at hidle
  case inr.inr.true => exact absurd rfl hassert
  case inr.inl.error e info hcont _ =>
    refine ⟨by simpa [hcont] using hbusy, by simp [hcont], by simp, by simp, by simp, by simp, by simp,
      ?_, ?_, by simp⟩ <;> constructor <;> simp
  all_goals
    refine ⟨by simpa using hbusy, by simp, by simp, by simp, by simp, by simp, by simp, ?_, ?_, by simp⟩ <;>
      constructor <;> simp

theorem hostEvent_gap {op : HostOp} {s t : State} (h : hostEvent op s = .next t) : t.gap = s.gap := by
  rcases hostEvent_effect h with ⟨p, a, d, rfl⟩ | ⟨off, v, -, -, hwrite⟩ | ⟨level, -, rfl⟩
  · rfl
  · cases hwrite <;> rfl
  · cases level <;> rfl

theorem State.hostGoes_gap_running {s : State} (h : s.running = true) (rest : List HostOp) :
    (s.hostGoes rest).gap = s.gap - 1 := by
  rw [State.hostGoes, if_pos h]

theorem step_of_sequencerTurn {s : State} (h : s.SequencerTurn) :
    s.turn = .sequencer ∧ step s = s.sequencerStep := by
  have hturn : s.turn = .sequencer := turn_sequencer_iff.mpr h
  exact ⟨hturn, by simp only [step, State.event, hturn]⟩

/-- Settles O52: while the engine runs, the turn is the host's only with an event pending and a positive
count, which the event lowers. -/
theorem sequencerIsNeverHeldOff : Obligations.SequencerIsNeverHeldOff := by
  intro s hinner hbusy hrst
  have hrun : s.running = true := (running_iff s).mpr ⟨hbusy, hrst⟩
  refine ⟨fun hnone => step_of_sequencerTurn ⟨hinner, hrun, .inl hnone⟩,
    fun hgap => step_of_sequencerTurn ⟨hinner, hrun, .inr hgap⟩, fun t op rest hturn hstep _ => ?_⟩
  have hpositive : s.gap ≠ 0 := hturn.2.2 hrun
  rw [hturn.step_eq] at hstep
  rw [hostEvent_gap hstep, State.hostGoes_gap_running hrun]
  omega

end Sys2Proof.Machine
end

section
/-! SUPPORT. The reset state's registers, the invariant at reset, and the step at each turn by the code it
runs; and the statements of 70_reset_and_hazards.md section 1, of 10_state.md section 6 and of the step's
dispatch, with the table of round constants. -/

namespace Sys2Proof.Machine

/-! ### The reset state -/

/-- The reset state holds every register at its value of R50, whatever the build. -/
theorem State.resetWith_atReset (c : Config) : (State.resetWith c).AtReset where
  status := BitVec.eq_of_toNat_eq (State.statusWord_toNat _)
  msgLen := rfl
  irqEn := (by decide : 0#30 ++ BitVec.ofBool false ++ BitVec.ofBool false = 0#32)
  errinfo := rfl
  blockCnt := rfl
  blockTotal := rfl
  hs := rfl
  digest k := by fin_cases k <;> rfl
  irq := rfl

theorem State.hardReset_atReset (s : State) : s.hardReset.AtReset :=
  let h := State.resetWith_atReset s.cfg
  ⟨h.status, h.msgLen, h.irqEn, h.errinfo, h.blockCnt, h.blockTotal, h.hs, h.digest, h.irq⟩

/-- The digits of a digest of zeros are all the character 0 (R35, R184). -/
theorem digestHexWord_zero (k : Fin 8) :
    digestHexWord ⟨0#32, 0#32, 0#32, 0#32⟩ k = 0x30303030#32 := by
  revert k
  decide

/-- Settles O42: the values of `resetWith`. -/
theorem resetLeavesTheSpecsValues : Obligations.ResetLeavesTheSpecsValues := by
  obtain ⟨hstatus, hlen, hirqEn, hinfo, hcnt, htotal, hhs, hdigest, hirq⟩ :=
    State.resetWith_atReset Config.built
  exact ⟨hstatus, hlen, hirqEn, hinfo, hcnt, htotal, hhs, hdigest, digestHexWord_zero, hirq⟩

/-- Settles O43: the event is the hard reset, which is the same update in every state. -/
theorem hardResetInAnyState : Obligations.HardResetInAnyState := by
  intro s rest hturn
  exact ⟨_, hturn.step_eq, rfl, State.hardReset_atReset _, fun _ => rfl, rfl, by simp⟩

/-- Settles O44: the reset state is idle with nothing recorded, so every clause about a run or an error
holds with nothing to say. -/
theorem resetMeetsInvariant : Obligations.ResetMeetsInvariant where
  memory_wf := Memory.reset_wf 0
  memory_bounded := nofun
  phase_legal := by decide
  busy_iff_phase := by decide
  busy_not_done := nofun
  errcode_legal := by decide
  err_iff_code := by decide
  errinfo_zero _ := rfl
  cnt_le_total := by decide
  phase_option := ⟨nofun, nofun, nofun, nofun, nofun⟩
  pad_fits := nofun
  cubesum_work := nofun
  stream_work := nofun
  total_pos := nofun
  block_pending := nofun
  blocks_done := nofun
  inner_phase h := absurd rfl h
  reset_held := nofun

/-! ### The reset input while it is asserted -/

/-- A transaction that comes while `rst` is asserted gets no answer (R245). -/
theorem hostEvent_asserted {op : HostOp} {s : State} (h : s.rst = true) (hop : ∀ level, op ≠ .rst level) :
    hostEvent op s = .next { s with answer := none } := by
  cases op with
  | rst level => exact absurd rfl (hop level)
  | _ => exact atPort_asserted h _

/-- Settles O60: the port drops the transaction, the sequencer's turn needs `rst` released, and a release
writes the level alone. -/
theorem assertedResetHoldsEngine : Obligations.AssertedResetHoldsEngine := by
  refine ⟨fun s op rest hturn hrst hop => ?dropped, fun s hrst hturn => ?noStep,
    fun s hinner hrst hnone => ?idle, fun s rest hturn => ?release⟩
  case dropped =>
    rw [hturn.step_eq, hostEvent_asserted (by simpa using hrst) hop]
    exact ⟨_, rfl, rfl, by simp, hostGoes_answered_keeps s rest _ _⟩
  case noStep =>
    have hrun := (running_iff s).mp (turn_sequencer_iff.mp hturn).2.1
    simp [hrst] at hrun
  case idle =>
    have hturn : s.turn = .idle := by simp [State.turn, hinner, hnone, State.running, hrst]
    simp only [step, State.event, hturn]
  case release =>
    refine ⟨_, hturn.step_eq, rfl, by simp, by simp, by simp, by simp, by simp, ?_, ?_, ?_, by simp⟩ <;>
      constructor <;> simp

/-! ### What a step runs -/

theorem writeCmd_of_not_ok {w : Word} (h : (decodeCmd w).isOk = false) (s : State) :
    writeCmd w s = .next (s.raise .illegal w) := by
  cases hdec : decodeCmd w with
  | ok i => simp [hdec, Except.isOk, Except.toBool] at h
  | error r => simp only [writeCmd, hdec]

theorem sequencerStep_of_decodePhase {s : State} {i : Instr} (h : decodePhase s.phase = .ok i) :
    s.sequencerStep = exec i s.sequencerGoes := by
  simp only [State.sequencerStep, h]

/-- Settles O41: a CMD write reaches `writeCmd`, the sequencer's step decodes PHASE, and a round decodes its
index. -/
theorem stepRunsDecodedOperation : Obligations.StepRunsDecodedOperation := by
  intro s i
  refine ⟨fun w rest hturn => ?_, fun hturn hdec => ?_, fun j hinner hdec => ?_⟩
  · have hstep := hturn.step_write_reg (r := .cmd) rfl rfl nofun
    exact ⟨hstep, fun hdec => hstep.trans (writeCmd_of_decodeCmd hdec _),
      fun hbad => hstep.trans (writeCmd_of_not_ok hbad _)⟩
  · rw [(step_of_sequencerTurn hturn).2, sequencerStep_of_decodePhase hdec]
  · cases hdec
    simp only [step, State.event, turn_round_iff.mpr hinner]

/-- Settles O59: the table's rows, put together, are the rule's. -/
theorem roundConstantsAreTheTable : Obligations.RoundConstantsAreTheTable :=
  ⟨rfl, fun _ => rfl⟩

end Sys2Proof.Machine
end

section
/-! SUPPORT. The clauses of the invariant about where the sequencer stands: what each place asks, which move
on meets it, and the stream that PAD and CUBESUM make. -/

namespace Sys2Proof.Machine

/-! ### The sequencer's place in a run -/

/-- The clauses of `State.Inv` that PHASE and the block counts have to themselves. -/
structure State.PhaseInv (s : State) : Prop where
  phase_legal : s.phase.toNat ≤ 9
  cnt_le_total : s.blockCnt.toNat ≤ s.blockTotal.toNat
  phase_option :
    (s.phase = 3#4 → s.option 1 = true) ∧ (s.phase = 4#4 → s.option 3 = true) ∧
      (s.phase = 6#4 → s.option 2 = true) ∧ (s.phase = 7#4 → s.option 3 = true) ∧
        (s.phase = 8#4 → s.option 4 = true)
  pad_fits : s.phase = 2#4 → s.msgLen.toNat ≤ s.cfg.msgBufBytes
  cubesum_work : s.phase = 3#4 → s.work.length + 192 = 64 * s.blockTotal.toNat
  stream_work : 4 ≤ s.phase.toNat → s.work.length = 64 * s.blockTotal.toNat
  total_pos : 3 ≤ s.phase.toNat → 0 < s.blockTotal.toNat
  block_pending : 5 ≤ s.phase.toNat → s.phase.toNat ≤ 7 → s.blockCnt.toNat < s.blockTotal.toNat
  blocks_done : 8 ≤ s.phase.toNat → s.blockCnt = s.blockTotal

/-- The engine holds a stream of whole blocks, at least one of them, and none beyond the count is begun:
what the per-block phases work on (R198). -/
structure State.BlockInProgress (s : State) : Prop where
  stream : s.work.length = 64 * s.blockTotal.toNat
  pending : s.blockCnt.toNat < s.blockTotal.toNat

/-- IDLE and CHECK ask nothing of the stream. -/
theorem State.PhaseInv.of_phase_le_one {s : State} (hphase : s.phase = 0#4 ∨ s.phase = 1#4)
    (hcnt : s.blockCnt.toNat ≤ s.blockTotal.toNat) : s.PhaseInv := by
  rcases hphase with hp | hp <;> constructor <;> simp [hp, hcnt]

/-- The per-block phases ask for a block in progress, and for the options of the phases that have one. -/
theorem State.BlockInProgress.phaseInv {s : State} (h : s.BlockInProgress) (hlo : 5 ≤ s.phase.toNat)
    (hhi : s.phase.toNat ≤ 7) (h2 : s.phase = 6#4 → s.option 2 = true)
    (h3 : s.phase = 7#4 → s.option 3 = true) : s.PhaseInv where
  phase_legal := by omega
  cnt_le_total := Nat.le_of_lt h.pending
  phase_option :=
    ⟨fun hp => by simp [hp] at hlo, fun hp => by simp [hp] at hlo, h2, h3, fun hp => by simp [hp] at hhi⟩
  pad_fits hp := by simp [hp] at hlo
  cubesum_work hp := by simp [hp] at hlo
  stream_work _ := h.stream
  total_pos _ := Nat.zero_lt_of_lt h.pending
  block_pending _ _ := h.pending
  blocks_done hp := by omega

/-- FINAL and OUTPUT ask for a complete stream, and FINAL for its option. -/
theorem State.PhaseInv.of_blocks_done {s : State} (hp : s.phase = 8#4 ∧ s.option 4 = true ∨ s.phase = 9#4)
    (hstream : s.work.length = 64 * s.blockTotal.toNat) (hpos : 0 < s.blockTotal.toNat)
    (hdone : s.blockCnt = s.blockTotal) : s.PhaseInv := by
  rcases hp with ⟨hp, h4⟩ | hp <;> constructor <;> simp [*]

/-- The end of a block leads to the next block's COMPRESS, or with all blocks complete to FINAL or
OUTPUT (R198). -/
theorem State.BlockInProgress.endOfBlock_phaseInv {s : State} (h : s.BlockInProgress) :
    s.endOfBlock.PhaseInv := by
  obtain ⟨hstream, hpending⟩ := h
  have hcnt : s.endOfBlock.blockCnt.toNat = s.blockCnt.toNat + 1 := by
    have hbound := s.blockTotal.isLt
    simp only [State.endOfBlock_blockCnt, BitVec.toNat_add, BitVec.toNat_ofNat]
    omega
  by_cases hmore : s.blockCnt.toNat + 1 < s.blockTotal.toNat
  · have hp : s.endOfBlock.phase = 5#4 := by rw [State.endOfBlock_phase, if_pos hmore]
    have hblock : s.endOfBlock.BlockInProgress := ⟨by simpa using hstream, by rw [hcnt]; simpa using hmore⟩
    exact hblock.phaseInv (by simp [hp]) (by simp [hp]) (by simp [hp]) (by simp [hp])
  · have hdone : s.endOfBlock.blockCnt = s.endOfBlock.blockTotal :=
      BitVec.eq_of_toNat_eq (by rw [hcnt, State.endOfBlock_blockTotal]; omega)
    have hp : s.endOfBlock.phase = 8#4 ∧ s.option 4 = true ∨ s.endOfBlock.phase = 9#4 := by
      rw [State.endOfBlock_phase, if_neg hmore]
      cases s.option 4 <;> decide
    exact .of_blocks_done hp (by simpa using hstream) (by simp; omega) hdone

/-- The move on from CHAOS leaves the block in progress or ends it (R197). -/
theorem State.BlockInProgress.afterChaos_phaseInv {s : State} (h : s.BlockInProgress) :
    s.afterChaos.PhaseInv := by
  unfold State.afterChaos
  split
  · rename_i h3
    exact State.BlockInProgress.phaseInv ⟨h.stream, h.pending⟩ (by simp) (by simp) nofun fun _ => h3
  · exact h.endOfBlock_phaseInv

/-- The move on from COMPRESS leaves the block in progress or ends it (R197). -/
theorem State.BlockInProgress.afterCompress_phaseInv {s : State} (h : s.BlockInProgress) :
    s.afterCompress.PhaseInv := by
  unfold State.afterCompress
  split
  · rename_i h2
    exact State.BlockInProgress.phaseInv ⟨h.stream, h.pending⟩ (by simp) (by simp) (fun _ => h2) nofun
  split
  · rename_i h3
    exact State.BlockInProgress.phaseInv ⟨h.stream, h.pending⟩ (by simp) (by simp) nofun fun _ => h3
  · exact h.endOfBlock_phaseInv

/-- CUBESUM asks for its option and for the padded message, 192 bytes short of the stream to come. -/
theorem State.PhaseInv.of_cubesum_pending {s : State} (hp : s.phase = 3#4) (h1 : s.option 1 = true)
    (hwork : s.work.length + 192 = 64 * s.blockTotal.toNat) (hpos : 0 < s.blockTotal.toNat)
    (hcnt : s.blockCnt = 0#32) : s.PhaseInv := by
  constructor <;> simp [*]

/-- HENONGEN, or the first COMPRESS, asks for a stream of at least one block and a count of 0. -/
theorem State.PhaseInv.of_stream {s : State} (hp : s.phase = 4#4 ∧ s.option 3 = true ∨ s.phase = 5#4)
    (hstream : s.work.length = 64 * s.blockTotal.toNat) (hpos : 0 < s.blockTotal.toNat)
    (hcnt : s.blockCnt = 0#32) : s.PhaseInv := by
  rcases hp with ⟨hp, h3⟩ | hp <;> constructor <;> simp [*]

/-! ### The move on never leads to IDLE -/

theorem State.endOfBlock_phase_ne_idle (s : State) : s.endOfBlock.phase ≠ 0#4 := by
  rw [State.endOfBlock_phase]
  split
  · decide
  · cases s.option 4 <;> decide

theorem State.afterChaos_phase_ne_idle (s : State) : s.afterChaos.phase ≠ 0#4 := by
  unfold State.afterChaos
  split
  · simp
  · exact s.endOfBlock_phase_ne_idle

theorem State.afterCompress_phase_ne_idle (s : State) : s.afterCompress.phase ≠ 0#4 := by
  unfold State.afterCompress
  split
  · simp
  split
  · simp
  · exact s.endOfBlock_phase_ne_idle

theorem State.phaseAfterCubesum_cases (s : State) :
    s.phaseAfterCubesum = 4#4 ∧ s.option 3 = true ∨ s.phaseAfterCubesum = 5#4 := by
  unfold State.phaseAfterCubesum
  cases s.option 3 <;> decide

theorem State.phaseAfterPad_cases (s : State) :
    s.option 1 = true ∧ s.phaseAfterPad = 3#4 ∨
      s.option 1 = false ∧ (s.phaseAfterPad = 4#4 ∧ s.option 3 = true ∨ s.phaseAfterPad = 5#4) := by
  unfold State.phaseAfterPad
  cases s.option 1 <;> cases s.option 3 <;> decide

/-! ### The stream PAD makes -/

theorem State.message_length_le (s : State) : s.message.length ≤ s.msgLen.toNat := by
  cases hhex : s.hexin with
  | false => exact (State.message_length_raw hhex).le
  | true => exact (State.message_length_hex hhex).le.trans (Nat.div_le_self ..)

/-- The capacity of MSGBUF leaves room below 2^32 for the padding and the binding segment (R8). -/
theorem msgBufBytes_room (c : Config) : c.msgBufBytes + 0x1000 ≤ 2 ^ 32 :=
  c.msgBufBytes_legal.2.2.trans (Nat.pow_le_pow_right (by decide) c.addrBits_legal.2)

/-- The number of blocks of a message that fits MSGBUF, with the binding segment's if Option 1 is on, fits
BLOCK_TOTAL (R106). -/
theorem State.padded_blockTotal {s : State} (hfits : s.msgLen.toNat ≤ s.cfg.msgBufBytes) (extra : Nat)
    (hextra : extra = 0 ∨ extra = 192) :
    64 * (BitVec.ofNat 32 (((padMessage s.message).length + extra) / 64)).toNat =
      (padMessage s.message).length + extra := by
  have hlen := s.message_length_le
  have hcap := msgBufBytes_room s.cfg
  rw [padMessage_length_blocks, BitVec.toNat_ofNat]
  omega

/-! ### The stream CUBESUM makes -/

@[simp] theorem cubicMix_length (trunc : CubeTrunc) (P : List Byte) :
    (cubicMix trunc P).length = P.length + 192 := by
  rw [cubicMix_eq, List.length_append, groupReplacements_all_length, bindingSegment_length]

@[simp] theorem State.workBytes_length (s : State) (a n : Nat) : (s.workBytes a n).length = n := by
  simp [State.workBytes]

end Sys2Proof.Machine
end

section
/-! SUPPORT. The invariant under every stage operation and under every update a host event can make; and the
statement that every step keeps it. -/

namespace Sys2Proof.Machine

/-! ### The invariant by its parts -/

/-- The clauses of `State.Inv` about the recorded error. -/
structure State.ErrorInv (s : State) : Prop where
  errcode_legal : s.errcode.toNat ≤ 5
  err_iff_code : s.err = true ↔ s.errcode ≠ 0#4
  errinfo_zero : s.err = false → s.errinfo = 0#32

/-- BUSY and PHASE show a run under way with DONE clear, or none. -/
def State.RunsOrIdles (s : State) : Prop :=
  s.busy = true ∧ s.phase ≠ 0#4 ∧ s.done = false ∨ s.busy = false ∧ s.phase = 0#4

theorem State.Inv.phaseInv {s : State} (h : s.Inv) : s.PhaseInv :=
  ⟨h.phase_legal, h.cnt_le_total, h.phase_option, h.pad_fits, h.cubesum_work, h.stream_work, h.total_pos,
    h.block_pending, h.blocks_done⟩

theorem State.Inv.errorInv {s : State} (h : s.Inv) : s.ErrorInv :=
  ⟨h.errcode_legal, h.err_iff_code, h.errinfo_zero⟩

theorem State.Inv.of_parts {s : State} (hwf : s.msgbuf.wf)
    (hbound : ∀ c ∈ s.msgbuf.cells, c.1 < s.cfg.msgBufBytes) (herror : s.ErrorInv) (hphase : s.PhaseInv)
    (hrun : s.RunsOrIdles) (hinner : s.inner ≠ .outside → s.phase = 5#4)
    (hheld : s.rst = true → s.AtReset) : s.Inv where
  memory_wf := hwf
  memory_bounded := hbound
  phase_legal := hphase.phase_legal
  busy_iff_phase := by rcases hrun with ⟨hb, hp, -⟩ | ⟨hb, hp⟩ <;> simp [hb, hp]
  busy_not_done hbusy := by
    rcases hrun with ⟨-, -, hd⟩ | ⟨hb, -⟩
    · exact hd
    · simp [hb] at hbusy
  errcode_legal := herror.errcode_legal
  err_iff_code := herror.err_iff_code
  errinfo_zero := herror.errinfo_zero
  cnt_le_total := hphase.cnt_le_total
  phase_option := hphase.phase_option
  pad_fits := hphase.pad_fits
  cubesum_work := hphase.cubesum_work
  stream_work := hphase.stream_work
  total_pos := hphase.total_pos
  block_pending := hphase.block_pending
  blocks_done := hphase.blocks_done
  inner_phase := hinner
  reset_held := hheld

theorem State.ErrorInv.of_keepsFlags {s t : State} (h : s.ErrorInv) (hflags : s.KeepsFlags t) :
    t.ErrorInv := by
  obtain ⟨hlegal, hiff, hzero⟩ := h
  constructor
  · rwa [hflags.errcode]
  · rwa [hflags.err, hflags.errcode]
  · rwa [hflags.err, hflags.errinfo]

theorem State.raise_errorInv (s : State) (e : ErrorKind) (info : Word) : (s.raise e info).ErrorInv where
  errcode_legal := by cases e <;> simp [ErrorKind.code]
  err_iff_code := by cases e <;> simp [ErrorKind.code]
  errinfo_zero := nofun

theorem State.ErrorInv.clearFlags {s : State} (h : s.ErrorInv) (v : Word) : (s.clearFlags v).ErrorInv := by
  obtain ⟨hlegal, hiff, hzero⟩ := h
  rw [State.clearFlags]
  cases v.getLsbD 2 with
  | true => constructor <;> simp
  | false => exact ⟨hlegal, hiff, hzero⟩

/-! ### The invariant in a run -/

theorem State.Inv.blockInProgress {s : State} (h : s.Inv) (hlo : 5 ≤ s.phase.toNat)
    (hhi : s.phase.toNat ≤ 7) : s.BlockInProgress :=
  ⟨h.stream_work (by omega), h.block_pending hlo hhi⟩

/-- A step of a run that keeps the host's inputs and the flags and goes on keeps the invariant, if the place
it comes to meets the clauses of its phase. -/
theorem State.Inv.advance {s t : State} (h : s.Inv) (hbusy : s.busy = true) (hcfg : t.cfg = s.cfg)
    (hbuf : t.msgbuf = s.msgbuf) (hrst : t.rst = false) (hinner : t.inner = .outside)
    (hflags : s.KeepsFlags t) (hgoes : t.phase ≠ 0#4) (hphase : t.PhaseInv) : t.Inv :=
  .of_parts (hbuf ▸ h.memory_wf) (hbuf ▸ hcfg ▸ h.memory_bounded) (h.errorInv.of_keepsFlags hflags) hphase
    (.inl ⟨hflags.busy.trans hbusy, hgoes, hflags.done.trans (h.busy_not_done hbusy)⟩)
    (fun hin => absurd hinner hin) (fun hheld => by simp [hrst] at hheld)

/-- A continuing error keeps the invariant in every state that is not held in reset (R220). -/
theorem State.Inv.raise_continuing {s : State} (h : s.Inv) (hrst : s.rst = false) {e : ErrorKind}
    (he : e.ending = false) (info : Word) : (s.raise e info).Inv := by
  have hraise : s.raise e info = { s with err := true, errcode := e.code, errinfo := info } := by
    simp [State.raise, he]
  have herror := s.raise_errorInv e info
  rw [hraise] at herror ⊢
  exact { h with
    errcode_legal := herror.errcode_legal
    err_iff_code := herror.err_iff_code
    errinfo_zero := herror.errinfo_zero
    reset_held := fun hheld => by simp [hrst] at hheld }

/-- An ending error leads to IDLE (R222). -/
theorem State.Inv.raise_ending {s : State} (h : s.Inv) (hrst : s.rst = false) (hinner : s.inner = .outside)
    {e : ErrorKind} (he : e.ending = true) (info : Word) : (s.raise e info).Inv :=
  .of_parts h.memory_wf h.memory_bounded (s.raise_errorInv e info)
    (.of_phase_le_one (.inl (by simp [he])) h.cnt_le_total) (.inr (by simp [he]))
    (fun hin => absurd hinner hin) (fun hheld => by simp [hrst] at hheld)

/-- CHECK finds ending errors only (R222). -/
theorem State.checkError_ending {s : State} {e : ErrorKind} {info : Word}
    (h : s.checkError = some (e, info)) : e.ending = true := by
  unfold State.checkError at h
  split at h
  · split at h
    · split at h
      · cases h
        rfl
      · obtain ⟨k, -, hk⟩ := Option.map_eq_some_iff.mp h
        cases hk
        rfl
    · cases h
  · cases h
    rfl

/-! ### The stage operations -/

section Stage

variable {s t : State} (h : s.Inv) (hbusy : s.busy = true) (hrst : s.rst = false)
  (hinner : s.inner = .outside)
include h hbusy hrst hinner

theorem State.Inv.check (hexec : exec .check s = .next t) : t.Inv := by
  rcases execCheck_cases hexec with ⟨e, info, herr, rfl⟩ | ⟨hnone, rfl⟩
  · exact h.raise_ending hrst hinner (State.checkError_ending herr) info
  · have hfits := (State.checkError_eq_none_iff.mp hnone).1
    refine h.advance hbusy rfl rfl hrst hinner (s.seqTo_keeps _ _).2.1 (by simp) ?_
    constructor <;> simp [hfits]

theorem State.Inv.pad (hp : s.phase = 2#4) (hexec : exec .pad s = .next t) : t.Inv := by
  have hfits := h.pad_fits hp
  cases hexec
  refine h.advance hbusy rfl rfl hrst hinner (by constructor <;> simp) ?_ ?_
  · rcases s.phaseAfterPad_cases with ⟨-, hnext⟩ | ⟨-, ⟨hnext, -⟩ | hnext⟩ <;> simp [hnext]
  have hpadded := padMessage_length s.message
  rcases s.phaseAfterPad_cases with ⟨h1, hnext⟩ | ⟨h1, hnext⟩
  · have htotal := State.padded_blockTotal hfits 192 (.inr rfl)
    exact .of_cubesum_pending hnext h1 (by simp [h1]; omega) (by simp [h1]; omega) rfl
  · have htotal := State.padded_blockTotal hfits 0 (.inl rfl)
    exact .of_stream hnext (by simp [h1]; omega) (by simp [h1]; omega) rfl

theorem State.Inv.cubesum (hp : s.phase = 3#4) (hexec : exec .cubesum s = .next t) : t.Inv := by
  have hlen := h.cubesum_work hp
  have hpos := h.total_pos (by simp [hp])
  cases hexec
  refine h.advance hbusy rfl rfl hrst hinner (by constructor <;> simp) ?_ ?_
  · rcases s.phaseAfterCubesum_cases with ⟨hnext, -⟩ | hnext <;> simp [hnext]
  · exact .of_stream s.phaseAfterCubesum_cases (by simp; omega) hpos rfl

theorem State.Inv.henongen (hp : s.phase = 4#4) (hexec : exec .henongen s = .next t) : t.Inv := by
  have hstream := h.stream_work (by simp [hp])
  have hpos := h.total_pos (by simp [hp])
  cases hexec
  exact h.advance hbusy rfl rfl hrst hinner (by constructor <;> simp) (by simp)
    (.of_stream (.inr rfl) hstream hpos rfl)

omit hinner in
theorem State.Inv.compressTail (hp : s.phase = 5#4) (saved rounds : Quad) :
    { s with sv := saved, hs := rounds }.compressTail.Inv := by
  have hblock := h.blockInProgress (by simp [hp]) (by simp [hp])
  exact h.advance hbusy (by simp) (by simp) (by simpa using hrst) (by simp) (by constructor <;> simp)
    (State.afterCompress_phase_ne_idle _)
    (State.BlockInProgress.afterCompress_phaseInv ⟨hblock.stream, hblock.pending⟩)

theorem State.Inv.chaos (hp : s.phase = 6#4) (hexec : exec .chaos s = .next t) : t.Inv := by
  have hblock := h.blockInProgress (by simp [hp]) (by simp [hp])
  cases hexec
  exact h.advance hbusy (by simp) (by simp) (by simpa using hrst) (by simpa using hinner)
    (by constructor <;> simp) (State.afterChaos_phase_ne_idle _)
    (State.BlockInProgress.afterChaos_phaseInv ⟨hblock.stream, hblock.pending⟩)

theorem State.Inv.henonmix (hp : s.phase = 7#4) (hexec : exec .henonmix s = .next t) : t.Inv := by
  have hblock := h.blockInProgress (by simp [hp]) (by simp [hp])
  cases hexec
  exact h.advance hbusy rfl rfl hrst hinner (by constructor <;> simp) (State.endOfBlock_phase_ne_idle _)
    (State.BlockInProgress.endOfBlock_phaseInv ⟨hblock.stream, hblock.pending⟩)

theorem State.Inv.finalSub (hp : s.phase = 8#4) (hexec : exec .finalSub s = .next t) : t.Inv := by
  have hstream := h.stream_work (by simp [hp])
  have hpos := h.total_pos (by simp [hp])
  have hdone := h.blocks_done (by simp [hp])
  cases hexec
  exact h.advance hbusy rfl rfl hrst hinner (by constructor <;> simp) (by simp)
    (.of_blocks_done (.inr rfl) hstream hpos hdone)

omit hbusy in
theorem State.Inv.output (hexec : exec .output s = .next t) : t.Inv := by
  cases hexec
  exact .of_parts h.memory_wf h.memory_bounded ⟨h.errcode_legal, h.err_iff_code, h.errinfo_zero⟩
    (.of_phase_le_one (.inl rfl) h.cnt_le_total) (.inr ⟨rfl, rfl⟩) (fun hin => absurd hinner hin)
    (fun hheld => by simp [hrst] at hheld)

end Stage

/-- Every stage operation keeps the invariant, at its own phase. -/
theorem State.Inv.exec_stage {s t : State} {i : Instr} (h : s.Inv) (hbusy : s.busy = true)
    (hrst : s.rst = false) (hinner : s.inner = .outside) (hdec : decodePhase s.phase = .ok i)
    (hexec : exec i s = .next t) : t.Inv := by
  rcases decodePhase_cases hdec with ⟨-, rfl⟩ | ⟨hp, rfl⟩ | ⟨hp, rfl⟩ | ⟨hp, rfl⟩ | ⟨hp, rfl⟩ | ⟨hp, rfl⟩ |
    ⟨hp, rfl⟩ | ⟨hp, rfl⟩ | ⟨-, rfl⟩
  · exact h.check hbusy hrst hinner hexec
  · exact h.pad hbusy hrst hinner hp hexec
  · exact h.cubesum hbusy hrst hinner hp hexec
  · exact h.henongen hbusy hrst hinner hp hexec
  · cases hexec
    exact h.compressTail hbusy hrst hp _ _
  · exact h.chaos hbusy hrst hinner hp hexec
  · exact h.henonmix hbusy hrst hinner hp hexec
  · exact h.finalSub hbusy hrst hinner hp hexec
  · exact h.output hrst hinner hexec

/-! ### Host events -/

theorem State.AtReset.of_answered {s : State} (h : s.AtReset) (p : List HostOp) (a : Option Answer)
    (g d : Nat) : State.AtReset { s with pending := p, answer := a, gap := g, draws := d } :=
  ⟨h.status, h.msgLen, h.irqEn, h.errinfo, h.blockCnt, h.blockTotal, h.hs, h.digest, h.irq⟩

/-- The model's own fields have no part in the invariant. -/
theorem State.Inv.of_answered {s : State} (h : s.Inv) (p : List HostOp) (a : Option Answer) (g d : Nat) :
    State.Inv { s with pending := p, answer := a, gap := g, draws := d } :=
  { h with reset_held := fun hheld => (h.reset_held hheld).of_answered p a g d }

theorem State.Inv.hostGoes {s : State} (h : s.Inv) (rest : List HostOp) : (s.hostGoes rest).Inv := by
  unfold State.hostGoes
  split
  · exact h.of_answered rest s.answer _ s.draws
  · exact h.of_answered rest s.answer _ _

theorem State.Inv.idle {s : State} (h : s.Inv) (hidle : s.busy = false) :
    s.phase = 0#4 ∧ s.inner = .outside := by
  have hphase : s.phase = 0#4 := by
    by_contra hp
    simp [h.busy_iff_phase.mpr hp] at hidle
  refine ⟨hphase, ?_⟩
  by_contra hin
  simp [h.inner_phase hin] at hphase

theorem State.Inv.softReset {s : State} (h : s.Inv) (hrst : s.rst = false) : s.softReset.Inv :=
  .of_parts h.memory_wf h.memory_bounded ⟨by simp, by simp, fun _ => rfl⟩
    (.of_phase_le_one (.inl rfl) (le_refl _)) (.inr ⟨rfl, rfl⟩) (fun hin => absurd rfl hin)
    (fun hheld => by simp [hrst] at hheld)

theorem State.hardReset_inv (s : State) : s.hardReset.Inv :=
  .of_parts (Memory.reset_wf _) nofun ⟨by simp, by simp, fun _ => rfl⟩
    (.of_phase_le_one (.inl rfl) (le_refl _)) (.inr ⟨rfl, rfl⟩) (fun hin => absurd rfl hin)
    (fun _ => s.hardReset_atReset)

/-- Releasing the reset input keeps the invariant. -/
theorem State.Inv.release {s : State} (h : s.Inv) : State.Inv { s with rst := false } :=
  { h with reset_held := nofun }

theorem State.Inv.startRun {s : State} (h : s.Inv) (hrst : s.rst = false) (hidle : s.busy = false)
    (o : BitVec 4) (x : Bool) : (s.startRun o x).Inv :=
  .of_parts h.memory_wf h.memory_bounded ⟨by simp, by simp, fun _ => rfl⟩
    (.of_phase_le_one (.inr rfl) h.cnt_le_total) (.inl ⟨rfl, by simp, rfl⟩)
    (fun hin => absurd (h.idle hidle).2 hin) (fun hheld => by simp [hrst] at hheld)

theorem State.Inv.clearFlags {s : State} (h : s.Inv) (hrst : s.rst = false) (v : Word) :
    (s.clearFlags v).Inv :=
  have herror := h.errorInv.clearFlags v
  { h with
    busy_not_done := fun hbusy => by
      rw [State.clearFlags_done, h.busy_not_done hbusy, ite_self]
    errcode_legal := herror.errcode_legal
    err_iff_code := herror.err_iff_code
    errinfo_zero := herror.errinfo_zero
    reset_held := fun hheld => by simp [hrst] at hheld }

/-- Every write that is answered OKAY keeps the invariant. -/
theorem State.Inv.write {s t : State} {off v : Word} (h : s.Inv) (hrst : s.rst = false)
    (hwrite : s.WriteEffect off v t) : t.Inv := by
  have hheld : s.rst ≠ true := by simp [hrst]
  cases hwrite with
  | clear => exact h.softReset hrst
  | start _ _ hidle => exact h.startRun hrst hidle _ _
  | error e info he _ => exact h.raise_continuing hrst he info
  | status => exact h.clearFlags hrst v
  | irqEn => exact { h with reset_held := fun hr => absurd hr hheld }
  | msgLen hidle =>
    exact { h with
      pad_fits := fun hp => by simp [(h.idle hidle).1] at hp
      reset_held := fun hr => absurd hr hheld }
  | msgbuf k _ hfits =>
    exact { h with
      memory_wf := Memory.writeBytes_wf h.memory_wf _ _
      memory_bounded := fun c hc => by
        rcases Memory.mem_writeBytes _ _ hc with hold | ⟨-, hnew⟩
        · exact h.memory_bounded c hold
        · exact Nat.lt_of_lt_of_le hnew hfits
      reset_held := fun hr => absurd hr hheld }
  | ignored => exact h

theorem State.Inv.hostEvent {s t : State} {op : HostOp} (h : s.Inv) (hhost : hostEvent op s = .next t) :
    t.Inv := by
  rcases hostEvent_effect hhost with ⟨p, a, d, rfl⟩ | ⟨off, v, -, hrst, hwrite⟩ | ⟨level, -, rfl⟩
  · exact h.of_answered p a s.gap d
  · exact (h.of_answered s.pending (some .okay) s.gap s.draws).write hrst hwrite
  · cases level with
    | true => exact s.hardReset_inv
    | false => exact h.release

/-! ### The statements -/

/-- A COMPRESS step under way belongs to a run, which the reset input does not hold. -/
theorem State.Inv.inside {s : State} (h : s.Inv) (hin : s.inner ≠ .outside) :
    s.phase = 5#4 ∧ s.busy = true ∧ s.rst = false := by
  have hphase := h.inner_phase hin
  refine ⟨hphase, h.busy_iff_phase.mpr (by simp [hphase]), ?_⟩
  by_contra hheld
  have hstatus := (h.reset_held (by simpa using hheld)).status
  have hzero := congrArg BitVec.toNat hstatus
  rw [State.statusWord_toNat, hphase] at hzero
  simp at hzero

/-- Settles O45: host events by what they can do, the sequencer's steps phase by phase, and the steps inside
a COMPRESS step, which stay at its phase until the last. -/
theorem stepKeepsInvariant : Obligations.StepKeepsInvariant := by
  intro s t h hstep
  rcases step_cases hstep with ⟨op, rest, -, hhost⟩ | ⟨i, hturn, hdec, hexec⟩ | ⟨j, hturn, hexec⟩ |
    ⟨hturn, rfl⟩ | ⟨-, rfl⟩
  case inl => exact (h.hostGoes rest).hostEvent hhost
  case inr.inl =>
    obtain ⟨hinner, hrun, -⟩ := turn_sequencer_iff.mp hturn
    obtain ⟨hbusy, hrst⟩ := (running_iff s).mp hrun
    have hgoes : s.sequencerGoes.Inv := h.of_answered s.pending s.answer _ _
    exact hgoes.exec_stage hbusy hrst hinner hdec hexec
  case inr.inr.inl =>
    obtain ⟨hphase, -, hrst⟩ := h.inside (by rw [turn_round_iff.mp hturn]; nofun)
    cases (exec_decodeRound j _).symm.trans hexec
    exact { h with
      inner_phase := fun _ => hphase
      reset_held := fun hheld => by simp [hrst] at hheld }
  case inr.inr.inr.inl =>
    obtain ⟨hphase, hbusy, hrst⟩ := h.inside (by rw [turn_tail_iff.mp hturn]; nofun)
    exact h.compressTail hbusy hrst hphase s.sv s.hs
  case inr.inr.inr.inr => exact h

end Sys2Proof.Machine
end

section
/-! SUPPORT. Which register accesses, transactions and host events complete; and the statement that from the
invariant only an offset outside the window stops the machine. -/

namespace Sys2Proof.Machine

theorem writeCmd_completes (v : Word) (s : State) : ∃ t, writeCmd v s = .next t := by
  cases hdec : decodeCmd v with
  | ok i =>
    rw [writeCmd_of_decodeCmd hdec]
    exact exec_completes i s
  | error r =>
    simp only [writeCmd, hdec]
    exact ⟨_, rfl⟩

theorem writeReg_completes {r : Reg} (hr : r ≠ .outside) (off v : Word) (s : State) :
    ∃ t, writeReg r off v s = .next t := by
  cases r with
  | cmd => exact writeCmd_completes v s
  | msgLen | msgbuf k =>
    simp only [writeReg]
    split <;> exact ⟨_, rfl⟩
  | outside => exact absurd rfl hr
  | _ => exact ⟨_, rfl⟩

theorem busWrite_completes {s : State} {off : Word} (hr : regAt s.cfg off.toNat ≠ .outside) (width : Width)
    (v : Word) : ∃ t, busWrite width off v s = .next t := by
  cases hadm : admitted width off with
  | true =>
    rw [busWrite_admitted v hadm hr]
    exact writeReg_completes hr ..
  | false => exact ⟨_, busWrite_unadmitted v hadm hr⟩

theorem busRead_completes {s : State} {off : Word} (hr : regAt s.cfg off.toNat ≠ .outside) (width : Width) :
    ∃ t, busRead width off s = .next t := by
  cases hadm : admitted width off with
  | true => exact ⟨_, busRead_admitted hadm hr⟩
  | false => exact ⟨_, busRead_unadmitted hadm hr⟩

theorem busWait_completes {s : State} {off : Word} (hr : regAt s.cfg off.toNat ≠ .outside)
    (mask want : Word) : ∃ t, busWait off mask want s = .next t := by
  obtain ⟨t, ht⟩ := busRead_completes hr .w32
  simp only [busWait, ht]
  exact ⟨_, rfl⟩

/-- A transaction at an offset outside the window faults, whichever it is (notes/assumptions/13.md). -/
theorem bus_faults {s : State} {off : Word} (hr : regAt s.cfg off.toNat = .outside) :
    (∀ width v, busWrite width off v s = .fault (.outsideWindow off)) ∧
      (∀ width, busRead width off s = .fault (.outsideWindow off)) ∧
        ∀ mask want, busWait off mask want s = .fault (.outsideWindow off) := by
  refine ⟨fun width v => ?_, fun width => ?_, fun mask want => ?_⟩ <;>
    simp only [busWrite, busRead, busWait, hr]

/-- The transactions at an offset. -/
def HostOp.At (op : HostOp) (off : Word) : Prop :=
  (∃ w v, op = .write w off v) ∨ (∃ w, op = .read w off) ∨ ∃ m v, op = .wait off m v

/-- A host event completes, or is a transaction that the port takes at an offset outside the window. -/
theorem hostEvent_completes_or_faults (op : HostOp) (s : State) :
    (∃ t, hostEvent op s = .next t) ∨
      ∃ off, op.At off ∧ s.rst = false ∧ regAt s.cfg off.toNat = .outside ∧
        hostEvent op s = .fault (.outsideWindow off) := by
  cases hrst : s.rst with
  | true =>
    cases op with
    | rst level => exact .inl ⟨_, rfl⟩
    | _ => exact .inl ⟨_, atPort_asserted hrst _⟩
  | false =>
    cases op with
    | rst level => exact .inl ⟨_, rfl⟩
    | write width off v =>
      rw [hostEvent, atPort_released hrst]
      by_cases hr : regAt s.cfg off.toNat = .outside
      · exact .inr ⟨off, .inl ⟨_, _, rfl⟩, rfl, hr, (bus_faults hr).1 width v⟩
      · exact .inl (busWrite_completes hr width v)
    | read width off =>
      rw [hostEvent, atPort_released hrst]
      by_cases hr : regAt s.cfg off.toNat = .outside
      · exact .inr ⟨off, .inr (.inl ⟨_, rfl⟩), rfl, hr, (bus_faults hr).2.1 width⟩
      · exact .inl (busRead_completes hr width)
    | wait off mask want =>
      rw [hostEvent, atPort_released hrst]
      by_cases hr : regAt s.cfg off.toNat = .outside
      · exact .inr ⟨off, .inr (.inr ⟨_, _, rfl⟩), rfl, hr, (bus_faults hr).2.2 mask want⟩
      · exact .inl (busWait_completes hr mask want)

/-- Every phase code that a run shows names a stage operation (R86). -/
theorem decodePhase_total {p : BitVec 4} (hidle : p ≠ 0#4) (hlegal : p.toNat ≤ 9) :
    ∃ i, decodePhase p = .ok i := by
  have hok : ∀ p : BitVec 4, p ≠ 0#4 → p.toNat ≤ 9 → (decodePhase p).isOk = true := by decide
  cases hdec : decodePhase p with
  | ok i => exact ⟨i, rfl⟩
  | error r => simpa [hdec, Except.isOk, Except.toBool] using hok p hidle hlegal

/-- Settles O46: no operation stops the machine, every phase of a run names one, and the port stops it only
at an offset that the window does not have. -/
theorem onlyOutsideWindowStops : Obligations.OnlyOutsideWindowStops := by
  intro s h
  cases hturn : s.turn with
  | host op rest =>
    have hhost : s.HostTurn op rest := turn_host_iff.mp hturn
    rcases hostEvent_completes_or_faults op (s.hostGoes rest) with ⟨t, ht⟩ | ⟨off, hop, hrst, hr, hfault⟩
    · exact .inl ⟨t, hhost.step_eq.trans ht⟩
    · have hrst : s.rst = false := by simpa using hrst
      have hout : 2 ^ s.cfg.addrBits ≤ off.toNat :=
        Nat.le_of_not_lt fun hin => regAt_ne_outside hin (by simpa using hr)
      refine .inr ⟨off, rest, hhost.step_eq.trans hfault, hout, ?_⟩
      rcases hop with ⟨w, v, rfl⟩ | ⟨w, rfl⟩ | ⟨m, v, rfl⟩
      · exact .inl ⟨w, v, hhost, hrst⟩
      · exact .inr (.inl ⟨w, hhost, hrst⟩)
      · exact .inr (.inr ⟨m, v, hhost, hrst⟩)
  | sequencer =>
    have hseq : s.SequencerTurn := turn_sequencer_iff.mp hturn
    have hbusy := ((running_iff s).mp hseq.2.1).1
    obtain ⟨i, hdec⟩ := decodePhase_total (h.busy_iff_phase.mp hbusy) h.phase_legal
    rw [(step_of_sequencerTurn hseq).2, sequencerStep_of_decodePhase hdec]
    exact .inl (exec_completes i _)
  | round j =>
    simp only [step, State.event, hturn]
    exact .inl (exec_completes _ _)
  | tail | idle =>
    simp only [step, State.event, hturn]
    exact .inl ⟨_, rfl⟩

end Sys2Proof.Machine
end

section
/-! SUPPORT. Steps put together to runs, and the run of a COMPRESS step round by round; and the statement
that it ends as the atomic step does. -/

namespace Sys2Proof.Machine

/-! ### Runs -/

/-- The first of a run's steps, for any machine. -/
theorem run_next {M : Host.Core} {s t : M.State} (h : M.step s = .next t) (k : Nat) :
    M.run (k + 1) s = M.run k t := by
  simp only [Host.Core.run, h]

/-- A run may be cut after any number of its steps. -/
theorem run_add {M : Host.Core} {s t : M.State} {m : Nat} (h : M.run m s = .next t) (n : Nat) :
    M.run (m + n) s = M.run n t := by
  induction m generalizing s with
  | zero =>
    cases h
    rw [Nat.zero_add]
  | succ m ih =>
    simp only [Host.Core.run] at h
    split at h
    · rename_i u hu
      rw [Nat.add_right_comm, run_next hu, ih h]
    · cases h
    · cases h

theorem run_succ {s t : State} (h : step s = .next t) (k : Nat) : core.run (k + 1) s = core.run k t :=
  run_next (M := core) h k

theorem run_one {s t : State} (h : step s = .next t) : core.run 1 s = .next t := run_succ h 0

/-! ### The rounds of a COMPRESS step -/

/-- The state inside a COMPRESS step that began in `s`, after `n` of its rounds. -/
def State.afterRounds (s : State) (n : Nat) : State :=
  { s with
    sv := s.hs
    hs := roundsUpTo s.block s.hs n
    inner := if n = 64 then .tail else .round (BitVec.ofNat 6 n) }

/-- The round index counts on to the end of the step (R124). -/
theorem nextInner_ofNat {n : Nat} (hn : n < 64) :
    (if BitVec.ofNat 6 n = 63#6 then Inner.tail else .round (BitVec.ofNat 6 n + 1#6)) =
      if n + 1 = 64 then .tail else .round (BitVec.ofNat 6 (n + 1)) := by
  have hlast : BitVec.ofNat 6 n = 63#6 ↔ n + 1 = 64 := by
    rw [← BitVec.toNat_inj, BitVec.toNat_ofNat, Nat.mod_eq_of_lt hn]
    change n = 63 ↔ _
    omega
  simp only [hlast, BitVec.ofNat_add]

theorem State.step_afterRounds (s : State) {n : Nat} (hn : n < 64) :
    step (s.afterRounds n) = .next (s.afterRounds (n + 1)) := by
  have hinner : (s.afterRounds n).inner = .round (BitVec.ofNat 6 n) := if_neg (by omega)
  simp only [step, State.event, turn_round_iff.mpr hinner, exec_decodeRound]
  simp only [State.roundGoes, State.afterRounds, nextInner_ofNat hn]
  rfl

theorem State.step_afterRounds_all (s : State) : step (s.afterRounds 64) = exec .compress s := by
  have hinner : (s.afterRounds 64).inner = .tail := rfl
  simp only [step, State.event, turn_tail_iff.mpr hinner]
  rfl

/-- The `m` rounds left and the additive update finish the step. -/
theorem State.run_afterRounds (s : State) {m : Nat} (hm : m ≤ 64) :
    core.run (m + 1) (s.afterRounds (64 - m)) = exec .compress s := by
  induction m with
  | zero =>
    obtain ⟨t, ht⟩ := exec_completes .compress s
    exact (run_one (s.step_afterRounds_all.trans ht)).trans ht.symm
  | succ m ih =>
    have hstep := s.step_afterRounds (n := 64 - (m + 1)) (by omega)
    rw [show 64 - (m + 1) + 1 = 64 - m by omega] at hstep
    rw [run_succ hstep, ih (by omega)]

/-- Settles O23: the rounds are taken from the first one, and the additive update last. -/
theorem compressEqualsItsRounds : Obligations.CompressEqualsItsRounds :=
  fun s => s.run_afterRounds (le_refl 64)

end Sys2Proof.Machine
end

section
/-! SUPPORT. A run with no host event pending, one stage at a time, from CHECK to the stream in WORK. -/

namespace Sys2Proof.Machine

/-! ### The stages of a run -/

/-- `s.Runs t`: the run that stands at CHECK in `s` has come to `t`, undisturbed by the host. -/
structure State.Runs (s t : State) : Prop where
  inner : t.inner = .outside
  pending : t.pending = []
  rst : t.rst = false
  busy : t.busy = true
  inputs : s.KeepsInputs t
  flags : s.KeepsFlags t

theorem State.KeepsInputs.trans {s t u : State} (h : s.KeepsInputs t) (h' : t.KeepsInputs u) :
    s.KeepsInputs u :=
  ⟨h'.cfg.trans h.cfg, h'.msgLen.trans h.msgLen, h'.doneIe.trans h.doneIe, h'.errIe.trans h.errIe,
    fun a => (h'.bytes a).trans (h.bytes a), h'.rst.trans h.rst⟩

theorem State.KeepsFlags.trans {s t u : State} (h : s.KeepsFlags t) (h' : t.KeepsFlags u) :
    s.KeepsFlags u :=
  ⟨h'.busy.trans h.busy, h'.done.trans h.done, h'.err.trans h.err, h'.errcode.trans h.errcode,
    h'.errinfo.trans h.errinfo, h'.opts.trans h.opts, h'.hexin.trans h.hexin⟩

theorem State.Runs.start {s : State} (hinner : s.inner = .outside) (hrst : s.rst = false)
    (hpending : s.pending = []) (hbusy : s.busy = true) : s.Runs s :=
  ⟨hinner, hpending, hrst, hbusy, ⟨rfl, rfl, rfl, rfl, fun _ => rfl, rfl⟩, ⟨rfl, rfl, rfl, rfl, rfl, rfl, rfl⟩⟩

/-- With no host event pending the step is the stage operation that PHASE names. -/
theorem State.Runs.step_eq {s t : State} {i : Instr} (h : s.Runs t) (hdec : decodePhase t.phase = .ok i) :
    step t = exec i t.sequencerGoes := by
  have hturn : t.SequencerTurn := ⟨h.inner, (running_iff t).mpr ⟨h.busy, h.rst⟩, .inl h.pending⟩
  rw [(step_of_sequencerTurn hturn).2, sequencerStep_of_decodePhase hdec]

theorem State.Runs.sequencerGoes {s t : State} (h : s.Runs t) : s.Runs t.sequencerGoes :=
  ⟨h.inner, h.pending, h.rst, h.busy, h.inputs.trans ⟨rfl, rfl, rfl, rfl, fun _ => rfl, rfl⟩,
    h.flags.trans ⟨rfl, rfl, rfl, rfl, rfl, rfl, rfl⟩⟩

/-- Two states with the same input mode and the same bytes below the same MSG_LEN have the same message. -/
theorem State.message_congr {s t : State} (hhexin : t.hexin = s.hexin) (hlen : t.msgLen = s.msgLen)
    (hbytes : ∀ k < s.msgLen.toNat, t.msgbuf.read k = s.msgbuf.read k) : t.message = s.message := by
  have hread : t.msgbuf.readBytes 0 t.msgLen.toNat = s.msgbuf.readBytes 0 s.msgLen.toNat := by
    rw [hlen, Memory.readBytes_from_zero, Memory.readBytes_from_zero]
    exact List.map_congr_left fun k hk => hbytes k (List.mem_range.mp hk)
  rw [State.message, hhexin, hread, State.message]

theorem State.Runs.message {s t : State} (h : s.Runs t) : t.message = s.message :=
  State.message_congr h.flags.hexin h.inputs.msgLen fun k _ => h.inputs.bytes k

theorem State.Runs.option {s t : State} (h : s.Runs t) (n : Nat) : t.option n = s.option n := by
  rw [State.option, h.flags.opts, State.option]

/-! ### The work stream -/

/-- `W` of the run in `s` (R200). -/
def State.stream (s : State) : List Byte := hashStream s.cfg s.opts s.message

/-- `s.Works t n h`: the run of `s` has come to `t` with its stream in WORK, `n` blocks complete and the hash
state `h`. -/
structure State.Works (s t : State) (n : Nat) (h : Quad) : Prop where
  runs : s.Runs t
  work : t.work = s.stream
  total : 64 * t.blockTotal.toNat = s.stream.length
  cnt : t.blockCnt.toNat = n
  hs : t.hs = h

theorem slice_getElem (B : List Byte) (i j : Nat) {k : Nat} (hk : k < (slice B i j).length) :
    (slice B i j)[k] = B[i + k]'(by rw [slice_length] at hk; omega) := by
  simp [slice]

/-- Block `n` of the stream of `s` (R200). -/
def State.blockAt (s : State) (n : Nat) : List Byte := slice s.stream (64 * n) (64 * n + 64)

/-- How many blocks the run of `s` has. -/
def State.blocks (s : State) : Nat := s.stream.length / 64

/-- The block in progress is the stream's own (R79, R115). -/
theorem State.Works.block {s t : State} {n : Nat} {h : Quad} (hw : s.Works t n h) (hn : n < s.blocks) :
    t.block = s.blockAt n := by
  rw [State.blocks] at hn
  rw [State.blockAt]
  refine List.ext_getElem (by rw [slice_length, State.block, State.workBytes_length]; omega)
    fun k hk hk' => ?_
  have hin : 64 * n + k < s.stream.length := by
    rw [slice_length] at hk'
    omega
  rw [slice_getElem]
  simp [State.block, State.workBytes, State.workByte, hw.cnt, hw.work, hin]

/-- The draw of the next gap leaves the block in progress. -/
theorem State.sequencerGoes_block (t : State) : t.sequencerGoes.block = t.block := rfl

/-! ### One step of a run -/

/-- A stage operation outside a COMPRESS step ends outside one. -/
theorem exec_stage_inner {p : BitVec 4} {i : Instr} {s t : State} (hdec : decodePhase p = .ok i)
    (h : exec i s = .next t) (hinner : s.inner = .outside) : t.inner = .outside := by
  rcases decodePhase_cases hdec with ⟨-, rfl⟩ | ⟨-, rfl⟩ | ⟨-, rfl⟩ | ⟨-, rfl⟩ | ⟨-, rfl⟩ | ⟨-, rfl⟩ |
    ⟨-, rfl⟩ | ⟨-, rfl⟩ | ⟨-, rfl⟩
  case inl =>
    rcases execCheck_cases h with ⟨e, info, -, rfl⟩ | ⟨-, rfl⟩ <;> exact hinner
  all_goals
    cases h
    simp [hinner]

/-- A stage between CHECK and OUTPUT is one step, and the run goes on. -/
theorem State.Runs.stage {s t u : State} {i : Instr} (h : s.Runs t) (hdec : decodePhase t.phase = .ok i)
    (hcheck : t.phase ≠ 1#4) (houtput : t.phase ≠ 9#4) (hexec : exec i t.sequencerGoes = .next u) :
    core.run 1 t = .next u ∧ s.Runs u := by
  have hhost := exec_sameHost hexec
  have hgoes := h.sequencerGoes
  have hflags := (exec_stage_keeps hdec hcheck houtput hexec).1
  exact ⟨run_one ((h.step_eq hdec).trans hexec), exec_stage_inner hdec hexec h.inner,
    hhost.pending.trans hgoes.pending, hhost.rst.trans hgoes.rst, hflags.busy.trans hgoes.busy,
    hgoes.inputs.trans (operationsLeaveInputs _ _ _ hexec), hgoes.flags.trans hflags⟩

/-- CHECK passes, and PAD is next (R99). -/
theorem State.Runs.check {s t : State} (h : s.Runs t) (hp : t.phase = 1#4) (hpasses : t.CheckPasses) :
    ∃ u, core.run 1 t = .next u ∧ s.Runs u ∧ u.phase = 2#4 := by
  have hdec : decodePhase t.phase = .ok .check := hp ▸ rfl
  have hexec : exec .check t.sequencerGoes = .next (t.sequencerGoes.seqTo 2#4 0#32) :=
    exec_check_of_passes hpasses
  obtain ⟨hinputs, hflags, -, -⟩ := t.sequencerGoes.seqTo_keeps 2#4 0#32
  have hgoes := h.sequencerGoes
  exact ⟨_, run_one ((h.step_eq hdec).trans hexec), ⟨h.inner, h.pending, h.rst, h.busy,
    hgoes.inputs.trans hinputs, hgoes.flags.trans hflags⟩, rfl⟩

/-! ### The stream -/

theorem State.stream_of_option_one {s : State} (h1 : s.option 1 = true) :
    s.stream = cubicMix s.cfg.cubeTrunc (padMessage s.message) := if_pos h1

theorem State.stream_of_not_option_one {s : State} (h1 : s.option 1 = false) :
    s.stream = padMessage s.message := if_neg (Bool.eq_false_iff.mp h1)

/-- What PAD leaves for CUBESUM or for the stages after it (R106). -/
theorem State.Runs.pad {s t : State} (h : s.Runs t) (hp : t.phase = 2#4)
    (hfits : s.msgLen.toNat ≤ s.cfg.msgBufBytes) :
    ∃ u, core.run 1 t = .next u ∧ s.Runs u ∧ u.work = padMessage s.message ∧ u.hs = iv ∧
      u.blockCnt = 0#32 ∧
        64 * u.blockTotal.toNat = (padMessage s.message).length + (if s.option 1 then 192 else 0) ∧
          u.phase = if s.option 1 then 3#4 else s.phaseAfterCubesum := by
  have hdec : decodePhase t.phase = .ok .pad := hp ▸ rfl
  obtain ⟨hrun, hruns⟩ := h.stage hdec (by simp [hp]) (by simp [hp]) rfl
  have hmessage : t.sequencerGoes.message = s.message := h.sequencerGoes.message
  have hoption := h.sequencerGoes.option
  have hextra : (if s.option 1 then 192 else 0) = 0 ∨ (if s.option 1 then 192 else 0) = 192 := by
    cases s.option 1 <;> decide
  refine ⟨_, hrun, hruns, ?_, rfl, rfl, ?_, ?_⟩
  · simp [hmessage]
  · simpa [hmessage, hoption] using State.padded_blockTotal hfits _ hextra
  · simp [State.phaseAfterPad, State.phaseAfterCubesum, hoption]

/-- CUBESUM replaces the padded message by the mixer's output (R142). -/
theorem State.Runs.cubesum {s t : State} (h : s.Runs t) (hp : t.phase = 3#4) (h1 : s.option 1 = true)
    (hwork : t.work = padMessage s.message)
    (htotal : 64 * t.blockTotal.toNat = (padMessage s.message).length + 192) (hhs : t.hs = iv) :
    ∃ u, core.run 1 t = .next u ∧ s.Works u 0 iv ∧ u.phase = s.phaseAfterCubesum := by
  have hdec : decodePhase t.phase = .ok .cubesum := hp ▸ rfl
  obtain ⟨hrun, hruns⟩ := h.stage hdec (by simp [hp]) (by simp [hp]) rfl
  have hread : 64 * t.sequencerGoes.blockTotal.toNat - 192 = t.sequencerGoes.work.length := by
    rw [State.sequencerGoes_blockTotal, State.sequencerGoes_work, hwork]
    omega
  have hstream := State.stream_of_option_one h1
  refine ⟨_, hrun, ⟨hruns, ?_, ?_, rfl, hhs⟩, ?_⟩
  · rw [State.seqTo_work, hread, State.workBytes_stream, State.sequencerGoes_work, hwork, hstream,
      h.sequencerGoes.inputs.cfg]
  · rw [hstream, cubicMix_length]
    exact htotal
  · simp [State.phaseAfterCubesum, h.sequencerGoes.option]

/-- PAD and, with Option 1, CUBESUM load the stream. -/
theorem State.Runs.load {s t : State} (h : s.Runs t) (hp : t.phase = 2#4)
    (hfits : s.msgLen.toNat ≤ s.cfg.msgBufBytes) :
    ∃ u, core.run (1 + (s.option 1).toNat) t = .next u ∧ s.Works u 0 iv ∧
      u.phase = s.phaseAfterCubesum := by
  obtain ⟨u, hrun, hruns, hwork, hhs, hcnt, htotal, hphase⟩ := h.pad hp hfits
  cases h1 : s.option 1 with
  | false =>
    have hstream := State.stream_of_not_option_one h1
    rw [h1] at htotal hphase
    exact ⟨u, hrun, ⟨hruns, hwork.trans hstream.symm, hstream ▸ htotal, by simp [hcnt], hhs⟩, hphase⟩
  | true =>
    rw [h1] at htotal hphase
    obtain ⟨w, hrun', hworks, hphase'⟩ := hruns.cubesum hphase h1 hwork htotal hhs
    exact ⟨w, (run_add hrun 1).trans hrun', hworks, hphase'⟩

end Sys2Proof.Machine
end

section
/-! SUPPORT. The steps of a run on its blocks: what each per-block stage leaves, and the hash state after any
number of blocks. -/

namespace Sys2Proof.Machine

/-! ### The blocks -/

/-- The run of `s` has its stream, and the Henon array if Option 3 is on. -/
structure State.Blocks (s t : State) (n : Nat) (h : Quad) : Prop extends s.Works t n h where
  array : s.option 3 = true → t.ha = henonArray s.cfg.henon

/-- The phase before block `n`, or after the last (R198). -/
def State.phaseBefore (s : State) (n : Nat) : BitVec 4 :=
  if n < s.blocks then 5#4 else if s.option 4 then 8#4 else 9#4

/-- The hash state before block `n` (R200). -/
def State.hashBefore (s : State) (n : Nat) : Quad := hashBlocks s.cfg s.opts s.stream n

/-- The run of `s` stands between two blocks, with `n` complete. -/
structure State.Between (s t : State) (n : Nat) (h : Quad) : Prop extends s.Blocks t n h where
  phase : t.phase = s.phaseBefore n

theorem State.Works.total_eq {s t : State} {n : Nat} {h : Quad} (hw : s.Works t n h) :
    t.blockTotal.toNat = s.blocks := by
  have htotal := hw.total
  rw [State.blocks]
  omega

/-- The padded message alone is a block at least. -/
theorem State.blocks_pos (s : State) : 0 < s.blocks := by
  have hpadded := padMessage_length_blocks s.message
  cases h1 : s.option 1 with
  | false =>
    rw [State.blocks, State.stream_of_not_option_one h1]
    omega
  | true =>
    rw [State.blocks, State.stream_of_option_one h1, cubicMix_length]
    omega

/-- With Option 3 HENONGEN fills the array, and then the first block begins (R169). -/
theorem State.Works.begin {s t : State} (hw : s.Works t 0 iv) (hp : t.phase = s.phaseAfterCubesum) :
    ∃ u, core.run (s.option 3).toNat t = .next u ∧ s.Between u 0 iv := by
  have hfirst : s.phaseBefore 0 = 5#4 := if_pos s.blocks_pos
  rw [State.phaseAfterCubesum] at hp
  cases h3 : s.option 3 with
  | false =>
    rw [h3] at hp
    exact ⟨t, rfl, ⟨hw, fun h => by simp [h3] at h⟩, hp.trans hfirst.symm⟩
  | true =>
    rw [h3] at hp
    have hdec : decodePhase t.phase = .ok .henongen := hp ▸ rfl
    obtain ⟨hrun, hruns⟩ := hw.runs.stage hdec (by simp [hp]) (by simp [hp]) rfl
    refine ⟨_, hrun, ⟨⟨hruns, hw.work, hw.total, rfl, hw.hs⟩, fun _ => ?_⟩, hfirst.symm⟩
    simp [hw.runs.inputs.cfg]

/-- A step within the block leaves it open. -/
theorem State.Blocks.within {s t u : State} {n : Nat} {h q : Quad} (hb : s.Blocks t n h)
    (hruns : s.Runs u) (hcnt : u.blockCnt = t.blockCnt) (hwork : u.work = t.work)
    (htotal : u.blockTotal = t.blockTotal) (hha : u.ha = t.ha) (hhs : u.hs = q) : s.Blocks u n q :=
  ⟨⟨hruns, hwork.trans hb.work, htotal ▸ hb.total, hcnt ▸ hb.cnt, hhs⟩, fun h3 => hha.trans (hb.array h3)⟩

/-- A step that ends the block leads to the next one, or to the end of the run (R198). -/
theorem State.Blocks.between {s t u : State} {n : Nat} {h q : Quad} (hb : s.Blocks t n h)
    (hn : n < s.blocks) (hruns : s.Runs u) (hends : t.EndsBlock u) (hwork : u.work = t.work)
    (htotal : u.blockTotal = t.blockTotal) (hha : u.ha = t.ha) (hhs : u.hs = q) :
    s.Between u (n + 1) q := by
  obtain ⟨hcnt, hmore, hlast⟩ := hends
  have hblocks := hb.total_eq
  have hbound := t.blockTotal.isLt
  have hnext : u.blockCnt.toNat = n + 1 := by
    rw [hcnt, BitVec.toNat_add, hb.cnt, BitVec.toNat_ofNat]
    omega
  refine ⟨⟨⟨hruns, hwork.trans hb.work, htotal ▸ hb.total, hnext, hhs⟩, fun h3 => hha.trans (hb.array h3)⟩, ?_⟩
  rw [hb.cnt, hblocks] at hmore hlast
  rw [State.phaseBefore, ← hb.runs.option 4]
  by_cases hm : n + 1 < s.blocks
  · rw [hmore hm, if_pos hm]
  · rw [hlast (by omega), if_neg hm]

/-! ### The moves on, whatever hash state the step computes -/

theorem State.substituted_afterChaos_of_option_three {s : State} (ct : Vector Byte 256) (h : Quad)
    (h3 : s.option 3 = true) :
    { s with ct := ct, hs := h }.afterChaos.phase = 7#4 ∧
      { s with ct := ct, hs := h }.afterChaos.blockCnt = s.blockCnt :=
  State.afterChaos_of_option_three (s := { s with ct := ct, hs := h }) h3

theorem State.compressTail_of_option_two {s : State} (saved rounds : Quad) (h2 : s.option 2 = true) :
    { s with sv := saved, hs := rounds }.compressTail.phase = 6#4 ∧
      { s with sv := saved, hs := rounds }.compressTail.blockCnt = s.blockCnt :=
  State.afterCompress_of_option_two
    (s := { s with sv := saved, hs := quadAdd rounds saved, inner := .outside }) h2

theorem State.compressTail_of_option_three {s : State} (saved rounds : Quad) (h2 : s.option 2 = false)
    (h3 : s.option 3 = true) :
    { s with sv := saved, hs := rounds }.compressTail.phase = 7#4 ∧
      { s with sv := saved, hs := rounds }.compressTail.blockCnt = s.blockCnt :=
  State.afterCompress_of_option_three
    (s := { s with sv := saved, hs := quadAdd rounds saved, inner := .outside }) h2 h3

/-! ### The steps of a block -/

/-- HENONMIX ends the block (R170). -/
theorem State.Blocks.henonmix {s t : State} {n : Nat} {h : Quad} (hb : s.Blocks t n h)
    (hn : n < s.blocks) (hp : t.phase = 7#4) (h3 : s.option 3 = true) :
    ∃ u, core.run 1 t = .next u ∧ s.Between u (n + 1) (henonState (henonArray s.cfg.henon) h) := by
  have hdec : decodePhase t.phase = .ok .henonmix := hp ▸ rfl
  obtain ⟨hrun, hruns⟩ := hb.runs.stage hdec (by simp [hp]) (by simp [hp]) rfl
  refine ⟨_, hrun, hb.between hn hruns (t.sequencerGoes.mixed_endOfBlock_endsBlock _) rfl rfl rfl ?_⟩
  simp [hb.array h3, hb.hs]

/-- CHAOS substitutes the hash state, and HENONMIX follows or the block ends (R154, R197). -/
theorem State.Blocks.chaos {s t : State} {n : Nat} {h : Quad} (hb : s.Blocks t n h)
    (hn : n < s.blocks) (hp : t.phase = 6#4) :
    ∃ u, core.run 1 t = .next u ∧
      (s.option 3 = true → s.Blocks u n (chaosState (chaosTable (s.blockAt n)) h) ∧ u.phase = 7#4) ∧
        (s.option 3 = false → s.Between u (n + 1) (chaosState (chaosTable (s.blockAt n)) h)) := by
  have hdec : decodePhase t.phase = .ok .chaos := hp ▸ rfl
  obtain ⟨hrun, hruns⟩ := hb.runs.stage hdec (by simp [hp]) (by simp [hp]) rfl
  have hoption := hb.runs.option 3
  have hhs : chaosState (chaosTable t.sequencerGoes.block) t.sequencerGoes.hs =
      chaosState (chaosTable (s.blockAt n)) h := by
    rw [State.sequencerGoes_hs, hb.hs, State.sequencerGoes_block, hb.block hn]
  refine ⟨_, hrun, fun h3 => ?_, fun h3 => ?_⟩
  · obtain ⟨hphase, hcnt⟩ :=
      t.sequencerGoes.substituted_afterChaos_of_option_three _ _ (hoption.trans h3)
    exact ⟨hb.within hruns hcnt (by simp) (by simp) (by simp) ((State.afterChaos_hs _).trans hhs), hphase⟩
  · exact hb.between hn hruns (State.substituted_afterChaos_endsBlock _ _ (hoption.trans h3)) (by simp)
      (by simp) (by simp) ((State.afterChaos_hs _).trans hhs)

/-- COMPRESS compresses the block, and the steps of Options 2 and 3 follow or the block ends (R124, R197). -/
theorem State.Blocks.compress {s t : State} {n : Nat} {h : Quad} (hb : s.Blocks t n h)
    (hn : n < s.blocks) (hp : t.phase = 5#4) :
    ∃ u, core.run 1 t = .next u ∧
      (s.option 2 = true → s.Blocks u n (compressBlock (s.blockAt n) h) ∧ u.phase = 6#4) ∧
        (s.option 2 = false → s.option 3 = true →
          s.Blocks u n (compressBlock (s.blockAt n) h) ∧ u.phase = 7#4) ∧
          (s.option 2 = false → s.option 3 = false →
            s.Between u (n + 1) (compressBlock (s.blockAt n) h)) := by
  have hdec : decodePhase t.phase = .ok .compress := hp ▸ rfl
  obtain ⟨hrun, hruns⟩ := hb.runs.stage hdec (by simp [hp]) (by simp [hp]) rfl
  have hoption := hb.runs.option
  have hhs : quadAdd (roundsUpTo t.sequencerGoes.block t.sequencerGoes.hs 64) t.sequencerGoes.hs =
      compressBlock (s.blockAt n) h := by
    rw [State.sequencerGoes_hs, hb.hs, State.sequencerGoes_block, hb.block hn, compressBlock]
  refine ⟨_, hrun, fun h2 => ?_, fun h2 h3 => ?_, fun h2 h3 => ?_⟩
  · obtain ⟨hphase, hcnt⟩ := t.sequencerGoes.compressTail_of_option_two _ _ ((hoption 2).trans h2)
    exact ⟨hb.within hruns hcnt (by simp) (by simp) (by simp) ((State.compressTail_hs _).trans hhs), hphase⟩
  · obtain ⟨hphase, hcnt⟩ :=
      t.sequencerGoes.compressTail_of_option_three _ _ ((hoption 2).trans h2) ((hoption 3).trans h3)
    exact ⟨hb.within hruns hcnt (by simp) (by simp) (by simp) ((State.compressTail_hs _).trans hhs), hphase⟩
  · exact hb.between hn hruns
      (State.compressTail_endsBlock _ _ ((hoption 2).trans h2) ((hoption 3).trans h3)) (by simp) (by simp)
      (by simp) ((State.compressTail_hs _).trans hhs)

/-- How many steps a block takes (R204). -/
def State.blockSteps (s : State) : Nat := 1 + (s.option 2).toNat + (s.option 3).toNat

/-- The per-block stages by the options of the run (R200). -/
theorem State.hashBlock_eq (s : State) (B : List Byte) (h : Quad) :
    hashBlock s.cfg s.opts B h =
      let h1 := compressBlock B h
      let h2 := if s.option 2 then chaosState (chaosTable B) h1 else h1
      if s.option 3 then henonState (henonArray s.cfg.henon) h2 else h2 := rfl

/-- The steps of a block compute its stages, by the options that are on (R200). -/
theorem State.Between.block {s t : State} {n : Nat} {h : Quad} (hb : s.Between t n h)
    (hn : n < s.blocks) :
    ∃ u, core.run s.blockSteps t = .next u ∧
      s.Between u (n + 1) (hashBlock s.cfg s.opts (s.blockAt n) h) := by
  have hp : t.phase = 5#4 := hb.phase.trans (if_pos hn)
  obtain ⟨u, hrun, hchaos, hmix, hend⟩ := hb.compress hn hp
  rw [State.blockSteps, State.hashBlock_eq]
  cases h2 : s.option 2 with
  | false =>
    cases h3 : s.option 3 with
    | false => exact ⟨u, hrun, hend h2 h3⟩
    | true =>
      obtain ⟨hopen, hp⟩ := hmix h2 h3
      obtain ⟨w, hrun', hw⟩ := hopen.henonmix hn hp h3
      exact ⟨w, (run_add hrun 1).trans hrun', hw⟩
  | true =>
    obtain ⟨hopen, hp⟩ := hchaos h2
    obtain ⟨w, hrun', hmix', hend'⟩ := hopen.chaos hn hp
    cases h3 : s.option 3 with
    | false => exact ⟨w, (run_add hrun 1).trans hrun', hend' h3⟩
    | true =>
      obtain ⟨hopen', hp'⟩ := hmix' h3
      obtain ⟨x, hrun'', hx⟩ := hopen'.henonmix hn hp' h3
      exact ⟨x, (run_add hrun 2).trans ((run_add hrun' 1).trans hrun''), hx⟩

/-- All the blocks from block `n` on (R198, R200). -/
theorem State.Between.blocks_run {s : State} (k : Nat) : ∀ {t : State} {n : Nat}, n + k = s.blocks →
    s.Between t n (s.hashBefore n) →
      ∃ u, core.run (k * s.blockSteps) t = .next u ∧ s.Between u s.blocks (s.hashBefore s.blocks) := by
  induction k with
  | zero =>
    rintro t n rfl hb
    exact ⟨t, by rw [Nat.zero_mul]; rfl, hb⟩
  | succ k ih =>
    intro t n hn hb
    obtain ⟨u, hrun, hu⟩ := hb.block (by omega)
    obtain ⟨w, hrun', hw⟩ := ih (by omega) hu
    exact ⟨w, by rw [Nat.succ_mul, Nat.add_comm, run_add hrun, hrun'], hw⟩

end Sys2Proof.Machine
end

section
/-! SUPPORT. How a run ends, and the whole run; and the statements of 46_dispatcher.md about what a completed
run computes. -/

namespace Sys2Proof.Machine

/-! ### The end of a run -/

/-- The bytes of sixteen read as four words are these bytes. -/
theorem quadBytes_quadOfBytes {B : List Byte} (hB : B.length = 16) : quadBytes (quadOfBytes B) = B := by
  refine List.ext_getElem hB.symm fun i hi _ => ?_
  have hi : i < 16 := hi
  have hbyte := byteAt_quadBytes (quadOfBytes B) ⟨i / 4, by omega⟩ ⟨i % 4, by omega⟩
  rw [quadOfBytes_get, extractLsb'_le32] at hbyte
  simp only [Nat.div_add_mod] at hbyte
  rw [← byteAt_of_lt, ← byteAt_of_lt, hbyte]

/-- The digest's bytes of a hash state, by Option 4 (R182, R183). -/
def State.digestOf (s : State) (h : Quad) : List Byte :=
  if s.option 4 then finalBytes s.cfg.finalSbox h else quadBytes h

theorem State.digestOf_length (s : State) (h : Quad) : (s.digestOf h).length = 16 := by
  unfold State.digestOf
  split
  · exact finalBytes_size s.cfg.finalSbox h
  · exact quadBytes_length h

/-- The run that stands at CHECK in `s` has ended in `t`, with the terminal hash state `h`. -/
structure State.Ends (s t : State) (h : Quad) : Prop where
  digest : quadBytes t.digest = s.digestOf h
  hs : t.hs = h
  busy : t.busy = false
  phase : t.phase = 0#4
  done : t.done = true
  err : t.err = s.err
  errcode : t.errcode = s.errcode
  errinfo : t.errinfo = s.errinfo
  opts : t.opts = s.opts
  hexin : t.hexin = s.hexin
  cnt : t.blockCnt.toNat = s.blocks
  total : t.blockTotal.toNat = s.blocks
  inputs : s.KeepsInputs t

/-- OUTPUT writes the digest and ends the run (R183). -/
theorem State.Works.output {s t : State} {h : Quad} (hw : s.Works t s.blocks h) (hp : t.phase = 9#4)
    (hdigest : t.digestBytes = s.digestOf h) : ∃ u, core.run 1 t = .next u ∧ s.Ends u h := by
  have hdec : decodePhase t.phase = .ok .output := hp ▸ rfl
  have hflags := hw.runs.flags
  refine ⟨_, run_one (hw.runs.step_eq hdec), ?_, hw.hs, rfl, rfl, rfl, hflags.err, hflags.errcode,
    hflags.errinfo, hflags.opts, hflags.hexin, hw.cnt, hw.total_eq, ?_⟩
  · exact (congrArg (fun B => quadBytes (quadOfBytes B)) hdigest).trans
      (quadBytes_quadOfBytes (s.digestOf_length h))
  · exact hw.runs.sequencerGoes.inputs.trans (operationsLeaveInputs .output _ _ rfl)

/-- FINAL, if Option 4 is on, and OUTPUT end the run (R182, R183). -/
theorem State.Between.finish {s t : State} {h : Quad} (hb : s.Between t s.blocks h) :
    ∃ u, core.run ((s.option 4).toNat + 1) t = .next u ∧ s.Ends u h := by
  have hp : t.phase = if s.option 4 then 8#4 else 9#4 := hb.phase.trans (if_neg (lt_irrefl _))
  have hoption := hb.runs.option 4
  cases h4 : s.option 4 with
  | false =>
    rw [h4] at hp
    refine hb.output hp ?_
    rw [State.digestBytes_of_not_option_four (hoption.trans h4), hb.hs, State.digestOf, h4]
    rfl
  | true =>
    rw [h4] at hp
    have hp : t.phase = 8#4 := hp
    have hdec : decodePhase t.phase = .ok .finalSub := hp ▸ rfl
    obtain ⟨hrun, hruns⟩ := hb.runs.stage hdec (by simp [hp]) (by simp [hp]) rfl
    have hworks : s.Works _ s.blocks h := ⟨hruns, hb.work, hb.total, hb.cnt, hb.hs⟩
    obtain ⟨u, hrun', hends⟩ := hworks.output rfl (by
      rw [State.digestBytes_of_option_four (hruns.option 4 |>.trans h4), State.digestOf, if_pos h4]
      simp [hb.hs, hb.runs.inputs.cfg])
    exact ⟨u, (run_add hrun 1).trans hrun', hends⟩

/-! ### The whole run -/

/-- The number of steps of the run that stands at CHECK in `s` (R204). -/
def State.steps (s : State) : Nat := runSteps s.opts s.blocks

theorem State.steps_eq (s : State) :
    s.steps = 1 + ((1 + (s.option 1).toNat) + ((s.option 3).toNat +
      (s.blocks * s.blockSteps + ((s.option 4).toNat + 1)))) := by
  have h : s.steps = 2 + (s.option 1).toNat + (s.option 3).toNat + s.blocks * s.blockSteps +
    (s.option 4).toNat + 1 := rfl
  omega

/-- A run that passes CHECK, with no host event pending, ends after its number of steps with the terminal
hash state of its stream (R200, R204). -/
theorem State.run_ends {s : State} (hinner : s.inner = .outside) (hrst : s.rst = false)
    (hpending : s.pending = []) (hbusy : s.busy = true) (hp : s.phase = 1#4) (hpasses : s.CheckPasses) :
    ∃ t, core.run s.steps s = .next t ∧ s.Ends t (hashFinal s.cfg s.opts s.message) := by
  obtain ⟨a, hcheck, ha, hpa⟩ := (State.Runs.start hinner hrst hpending hbusy).check hp hpasses
  obtain ⟨b, hload, hb, hpb⟩ := ha.load hpa hpasses.1
  obtain ⟨c, hbegin, hc⟩ := hb.begin hpb
  obtain ⟨d, hblocks, hd⟩ := State.Between.blocks_run s.blocks (Nat.zero_add _) hc
  obtain ⟨e, hfinish, he⟩ := hd.finish
  refine ⟨e, ?_, he⟩
  rw [State.steps_eq, run_add hcheck, run_add hload, run_add hbegin, run_add hblocks, hfinish]

theorem State.digestOf_hashFinal (s : State) :
    s.digestOf (hashFinal s.cfg s.opts s.message) = hashBytes s.cfg s.opts s.message := rfl

/-- Settles O47: the run ends in its number of steps with the terminal state of its stream, and the digest
is that state's bytes, through FINAL_SBOX with Option 4. -/
theorem runComputesHash : Obligations.RunComputesHash := by
  intro s hinner hrst hpending hbusy hp hpasses
  obtain ⟨t, hrun, h⟩ := State.run_ends hinner hrst hpending hbusy hp hpasses
  exact ⟨t, hrun, h.digest, h.hs, h.busy, h.phase, h.done, h.err, h.errcode, h.errinfo, h.opts, h.hexin,
    BitVec.eq_of_toNat_eq (h.cnt.trans h.total.symm), h.total, h.inputs⟩

/-! ### Two runs -/

theorem quadBytes_injective : Function.Injective quadBytes := fun p q h => by
  rw [← quadOfBytes_quadBytes p, h, quadOfBytes_quadBytes]

theorem run_unique {s t u : State} {n : Nat} (ht : core.run n s = .next t) (hu : core.run n s = .next u) :
    t = u := by
  cases ht.symm.trans hu
  rfl

/-- CHECK's conditions depend on the inputs of the run only. -/
theorem State.CheckPasses.congr {s t : State} (h : s.CheckPasses) (hcfg : t.cfg = s.cfg)
    (hhexin : t.hexin = s.hexin) (hlen : t.msgLen = s.msgLen)
    (hbytes : ∀ k < s.msgLen.toNat, t.msgbuf.read k = s.msgbuf.read k) : t.CheckPasses := by
  rw [State.CheckPasses, hcfg, hhexin, hlen]
  refine ⟨h.1, fun hhex => ⟨(h.2 hhex).1, fun k hk => ?_⟩⟩
  rw [hbytes k hk]
  exact (h.2 hhex).2 k hk

/-- Settles O48: both runs end as the function HASH of the same message and selector says. -/
theorem runIgnoresHistory : Obligations.RunIgnoresHistory := by
  rintro s u t w n hsi hui hsr hur hsp hup hsb hub hs1 hu1 hcfg hopts hhexin hlen hbytes hpasses rfl ht hw
  have hmessage : u.message = s.message := State.message_congr hhexin hlen hbytes
  have hpassesU := hpasses.congr hcfg hhexin hlen hbytes
  have hsteps : u.steps = s.steps := by rw [State.steps, State.blocks, State.stream, hcfg, hopts, hmessage]; rfl
  have hdigest : u.digestOf = s.digestOf := by
    funext h
    rw [State.digestOf, State.option, hcfg, hopts]
    rfl
  obtain ⟨t', ht', hsEnds⟩ := State.run_ends hsi hsr hsp hsb hs1 hpasses
  obtain ⟨w', hw', huEnds⟩ := State.run_ends hui hur hup hub hu1 hpassesU
  cases run_unique ht ht'
  cases run_unique hw (hsteps ▸ hw')
  rw [hcfg, hopts, hmessage] at huEnds
  exact ⟨quadBytes_injective (by rw [hsEnds.digest, huEnds.digest, hdigest]), huEnds.hs.trans hsEnds.hs.symm⟩

end Sys2Proof.Machine
end

section
/-! SUPPORT. The message of a hex string and of its bytes, and the function HASH with Option 4 and without
it; and the statements of 46_dispatcher.md section 1 and 45_final_sbox.md section 2 about them. -/

namespace Sys2Proof.Machine

/-! ### The two input modes -/

theorem byteAt_map_range (f : Nat → Byte) {n k : Nat} (hk : k < n) :
    byteAt ((List.range n).map f) k = f k := by
  simp [byteAt, hk]

theorem bytes_ext {A B : List Byte} (hlen : A.length = B.length)
    (h : ∀ k < B.length, byteAt A k = byteAt B k) : A = B := by
  refine List.ext_getElem hlen fun k hk hk' => ?_
  rw [← byteAt_of_lt hk, ← byteAt_of_lt hk', h k hk']

/-- Settles O49: byte `k` of the decoded message comes from the characters of pair `k`, which CHECK found to
be hex characters. -/
theorem hexModeLoadsTheRawMessage : Obligations.HexModeLoadsTheRawMessage := by
  rintro s u hhex hraw ⟨-, hchars⟩ hlen hbytes
  obtain ⟨-, hgood⟩ := hchars hhex
  have hlength := State.message_length_raw hraw
  refine bytes_ext (by rw [State.message_length_hex hhex, hlength]; omega) fun k hk => ?_
  rw [hlength] at hk
  obtain ⟨hi, hhi⟩ := Option.isSome_iff_exists.mp (hgood (2 * k) (by omega))
  obtain ⟨lo, hlo⟩ := Option.isSome_iff_exists.mp (hgood (2 * k + 1) (by omega))
  have hpair : k < ((List.range s.msgLen.toNat).map s.msgbuf.read).length / 2 := by
    rw [List.length_map, List.length_range]
    omega
  rw [State.message_hex hhex, State.message_raw hraw, byteAt_hexdecode _ hpair,
    byteAt_map_range _ (by omega), byteAt_map_range _ (by omega), byteAt_map_range _ hk,
    hexNibble_of_hexval hhi, hexNibble_of_hexval hlo]
  exact BitVec.eq_of_toNat_eq ((nibbles_toNat hi lo).trans (hbytes k hk hi lo hhi hlo).symm)

/-! ### Option 4 -/

/-- Adding Option 4 to a selector leaves the other options as they are. -/
theorem withOptionFour_getLsbD (o : BitVec 4) :
    (o ||| 8#4).getLsbD 0 = o.getLsbD 0 ∧ (o ||| 8#4).getLsbD 1 = o.getLsbD 1 ∧
      (o ||| 8#4).getLsbD 2 = o.getLsbD 2 ∧ (o ||| 8#4).getLsbD 3 = true := by
  revert o
  decide

theorem hashStream_withOptionFour (c : Config) (o : BitVec 4) (M : List Byte) :
    hashStream c (o ||| 8#4) M = hashStream c o M := by
  rw [hashStream, (withOptionFour_getLsbD o).1, hashStream]

theorem hashBlock_withOptionFour (c : Config) (o : BitVec 4) (B : List Byte) (h : Quad) :
    hashBlock c (o ||| 8#4) B h = hashBlock c o B h := by
  obtain ⟨-, h2, h3, -⟩ := withOptionFour_getLsbD o
  simp only [hashBlock, h2, h3]

theorem hashBlocks_withOptionFour (c : Config) (o : BitVec 4) (W : List Byte) (n : Nat) :
    hashBlocks c (o ||| 8#4) W n = hashBlocks c o W n := by
  induction n with
  | zero => rfl
  | succ n ih => rw [hashBlocks, hashBlock_withOptionFour, ih, hashBlocks]

theorem hashFinal_withOptionFour (c : Config) (o : BitVec 4) (M : List Byte) :
    hashFinal c (o ||| 8#4) M = hashFinal c o M := by
  rw [hashFinal, hashStream_withOptionFour, hashBlocks_withOptionFour, hashFinal]

theorem hashBytes_withOptionFour (c : Config) {o : BitVec 4} (M : List Byte) (h4 : o.getLsbD 3 = false) :
    hashBytes c (o ||| 8#4) M = (hashBytes c o M).map (fun x => c.finalSbox[x.toFin]) := by
  rw [hashBytes, hashBytes, hashFinal_withOptionFour, (withOptionFour_getLsbD o).2.2.2, h4]
  rfl

/-- With Option 4 the run is one step longer (R204). -/
theorem runSteps_withOptionFour {o : BitVec 4} (n : Nat) (h4 : o.getLsbD 3 = false) :
    runSteps (o ||| 8#4) n = runSteps o n + 1 := by
  obtain ⟨h1', h2', h3', h4'⟩ := withOptionFour_getLsbD o
  rw [runSteps, runSteps, h1', h2', h3', h4', h4, Bool.toNat_true, Bool.toNat_false]

/-- Settles O50: Option 4 is not read before the last steps, and both runs end as HASH says. -/
theorem finalOptionIsIndependent : Obligations.FinalOptionIsIndependent := by
  refine ⟨fun c o M h4 => ⟨hashBytes_withOptionFour c M h4, hashFinal_withOptionFour c o M⟩, ?_⟩
  rintro s t w n hinner hrst hpending hbusy hp hpasses h4 rfl ht hw
  obtain ⟨t', ht', hsEnds⟩ := State.run_ends hinner hrst hpending hbusy hp hpasses
  obtain ⟨w', hw', hEnds⟩ :=
    State.run_ends (s := { s with opts := s.opts ||| 8#4 }) hinner hrst hpending hbusy hp hpasses
  have hmessage : State.message { s with opts := s.opts ||| 8#4 } = s.message := rfl
  have hsteps : State.steps { s with opts := s.opts ||| 8#4 } = s.steps + 1 := by
    rw [State.steps, State.blocks, State.stream, hmessage, hashStream_withOptionFour,
      runSteps_withOptionFour _ h4]
    rfl
  cases run_unique ht ht'
  cases run_unique hw (hsteps ▸ hw')
  have hdigest := hEnds.digest
  rw [State.digestOf_hashFinal, hmessage, hashBytes_withOptionFour s.cfg s.message h4] at hdigest
  refine ⟨?_, ?_⟩
  · rw [hdigest, hsEnds.digest, State.digestOf_hashFinal]
  · rw [hEnds.hs, hsEnds.hs]
    exact hashFinal_withOptionFour s.cfg s.opts s.message

end Sys2Proof.Machine
end

section
/-! SUPPORT. Rounding a ratio to binary64: the rounded quotient, the bits and the units of the value it makes,
and where rounding leaves the finite values. -/

namespace Sys2Proof.Machine

/-! ### The rounded quotient -/

theorem divNearestEven_cases (N D : Nat) :
    (divNearestEven N D = N / D ∧ (2 * (N % D) < D ∨ 2 * (N % D) = D ∧ N / D % 2 = 0)) ∨
      (divNearestEven N D = N / D + 1 ∧ (D < 2 * (N % D) ∨ 2 * (N % D) = D ∧ N / D % 2 = 1)) := by
  unfold divNearestEven
  split <;> omega

/-- The rounded quotient is within half a divisor of the ratio, and even where it is just half of one. -/
theorem divNearestEven_near (N : Nat) {D : Nat} (hD : 0 < D) :
    2 * ((N : Int) - D * divNearestEven N D).natAbs ≤ D ∧
      (2 * ((N : Int) - D * divNearestEven N D).natAbs = D → divNearestEven N D % 2 = 0) := by
  have hr : N % D < D := Nat.mod_lt N hD
  have hN : (N : Int) = D * (N / D : Nat) + (N % D : Nat) := by
    exact_mod_cast (Nat.div_add_mod N D).symm
  rcases divNearestEven_cases N D with ⟨hk, hhalf⟩ | ⟨hk, hhalf⟩
  · have hdiff : (N : Int) - D * (divNearestEven N D : Nat) = (N % D : Nat) := by
      rw [hk]
      omega
    rw [hdiff, hk]
    omega
  · have hdiff : (N : Int) - D * (divNearestEven N D : Nat) = (N % D : Nat) - D := by
      rw [hk]
      rw [Nat.cast_add, Nat.cast_one, mul_add]
      omega
    rw [hdiff, hk]
    omega

/-- The rounded quotient stays at an odd number below the midpoint above it. -/
theorem divNearestEven_le_iff {N D p : Nat} (hD : 0 < D) (hp : p % 2 = 1) :
    divNearestEven N D ≤ p ↔ 2 * N < D * (2 * p + 1) := by
  have hr : N % D < D := Nat.mod_lt N hD
  have hN := Nat.div_add_mod N D
  have hmid : D * (2 * p + 1) = 2 * (D * p) + D := by ring
  rw [hmid]
  rcases Nat.lt_trichotomy (N / D) p with hlt | heq | hgt
  · have hle : D * (N / D + 1) ≤ D * p := Nat.mul_le_mul_left D hlt
    rw [mul_add] at hle
    rcases divNearestEven_cases N D with ⟨hk, -⟩ | ⟨hk, -⟩ <;> omega
  · have hq : D * (N / D) = D * p := by rw [heq]
    rcases divNearestEven_cases N D with ⟨hk, hhalf⟩ | ⟨hk, hhalf⟩ <;> omega
  · have hle : D * (p + 1) ≤ D * (N / D) := Nat.mul_le_mul_left D hgt
    rw [mul_add] at hle
    rcases divNearestEven_cases N D with ⟨hk, -⟩ | ⟨hk, -⟩ <;> omega

/-! ### The significand -/

/-- The number of low bits that do not fit in 53. -/
def excessBits (N D : Nat) : Nat := bitLength (N / D) - 53

/-- The rounded significand. -/
def significand (N D : Nat) : Nat := divNearestEven N (D * 2 ^ excessBits N D)

theorem quotient_lt (N D : Nat) : N / D < 2 ^ (53 + excessBits N D) := by
  rw [← bitLength_le_iff, excessBits]
  omega

/-- Where bits do not fit, the quotient has 53 bits and these. -/
theorem le_quotient {N D : Nat} (h : 0 < excessBits N D) : 2 ^ (52 + excessBits N D) ≤ N / D := by
  refine Nat.le_of_not_lt fun hlt => ?_
  have hlen := bitLength_le_iff.mpr hlt
  rw [excessBits] at hlen h
  omega

theorem scaled_quotient (N D t : Nat) : N / (D * 2 ^ t) = N / D / 2 ^ t := (Nat.div_div_eq_div_mul ..).symm

theorem significand_le (N D : Nat) : significand N D ≤ 2 ^ 53 := by
  have hq : N / (D * 2 ^ excessBits N D) < 2 ^ 53 := by
    rw [scaled_quotient, Nat.div_lt_iff_lt_mul (by positivity), ← Nat.pow_add]
    exact quotient_lt N D
  rw [significand]
  rcases divNearestEven_cases N (D * 2 ^ excessBits N D) with ⟨hk, -⟩ | ⟨hk, -⟩ <;> omega

theorem le_significand {N D : Nat} (h : 0 < excessBits N D) : 2 ^ 52 ≤ significand N D := by
  have hq : 2 ^ 52 ≤ N / (D * 2 ^ excessBits N D) := by
    rw [scaled_quotient, Nat.le_div_iff_mul_le (by positivity), ← Nat.pow_add]
    exact le_quotient h
  rw [significand]
  rcases divNearestEven_cases N (D * 2 ^ excessBits N D) with ⟨hk, -⟩ | ⟨hk, -⟩ <;> omega

/-! ### The fields of a value -/

/-- The value with a sign and the 63 bits below it. -/
def f64OfBits (neg : Bool) (b : Nat) : F64 := BitVec.ofNat 64 (f64SignBit neg + b)

section Fields

variable {neg : Bool} {b : Nat} (hb : b < 2 ^ 63)
include hb

theorem f64OfBits_toNat : (f64OfBits neg b).toNat = f64SignBit neg + b := by
  rw [f64OfBits, BitVec.toNat_ofNat, f64SignBit]
  cases neg <;> (simp; omega)

theorem f64OfBits_msb : (f64OfBits neg b).msb = neg := by
  rw [BitVec.msb_eq_decide, f64OfBits_toNat hb, f64SignBit]
  cases neg <;> simp
  omega

theorem f64OfBits_low : (f64OfBits neg b).toNat % 2 ^ 63 = b := by
  rw [f64OfBits_toNat hb, f64SignBit]
  cases neg <;> (simp; omega)

theorem f64OfBits_exponent : f64Exponent (f64OfBits neg b) = b / 2 ^ 52 := by
  rw [f64Exponent, f64OfBits_low hb]

theorem f64OfBits_fraction : f64Fraction (f64OfBits neg b) = b % 2 ^ 52 := by
  rw [f64Fraction, f64OfBits_toNat hb, f64SignBit]
  cases neg <;> simp
  omega

end Fields

/-- The bits `t * 2^52 + k` stand for `k` times `2^t` units: for a subnormal value, for a normal one, and
where rounding carried into the next exponent. -/
theorem f64OfBits_units {neg : Bool} {t k : Nat} (hk : k ≤ 2 ^ 53) (ht : 0 < t → 2 ^ 52 ≤ k)
    (hb : t * 2 ^ 52 + k < 2 ^ 63) : f64Units (f64OfBits neg (t * 2 ^ 52 + k)) = k * 2 ^ t := by
  rw [f64Units, f64OfBits_exponent hb, f64OfBits_fraction hb]
  rcases Nat.lt_or_ge k (2 ^ 52) with hsub | hnormal
  · have ht0 : t = 0 := by omega
    subst ht0
    rw [if_pos (by omega)]
    omega
  rcases Nat.lt_or_eq_of_le hk with hlt | heq
  · have hexp : (t * 2 ^ 52 + k) / 2 ^ 52 = t + 1 := by omega
    have hfrac : 2 ^ 52 + (t * 2 ^ 52 + k) % 2 ^ 52 = k := by omega
    rw [hexp, hfrac, if_neg (by omega), Nat.add_sub_cancel]
  · have hexp : (t * 2 ^ 52 + k) / 2 ^ 52 = t + 2 := by omega
    have hfrac : 2 ^ 52 + (t * 2 ^ 52 + k) % 2 ^ 52 = 2 ^ 52 := by omega
    rw [hexp, hfrac, heq, if_neg (by omega), show t + 2 - 1 = t + 1 by omega, ← Nat.pow_add, ← Nat.pow_add]
    congr 1
    omega

/-! ### The rounded value -/

/-- The bits below the sign of a ratio rounded within the finite values. -/
def roundedBits (N D : Nat) : Nat := excessBits N D * 2 ^ 52 + significand N D

theorem f64Round_eq_f64OfBits (neg : Bool) (N D : Nat) :
    f64Round neg N D = f64OfBits neg (min (roundedBits N D) (0x7FF * 2 ^ 52)) := rfl

theorem f64Finite_f64Round {neg : Bool} {N D : Nat} :
    f64Finite (f64Round neg N D) = true ↔ roundedBits N D < 0x7FF * 2 ^ 52 := by
  rw [f64Round_eq_f64OfBits, f64Finite, f64OfBits_exponent (by omega), decide_eq_true_iff]
  omega

theorem f64Round_of_finite {neg : Bool} {N D : Nat} (h : roundedBits N D < 0x7FF * 2 ^ 52) :
    f64Round neg N D = f64OfBits neg (roundedBits N D) := by
  rw [f64Round_eq_f64OfBits, Nat.min_eq_left h.le]

theorem f64Signed_f64Round {neg : Bool} {N D : Nat} (h : roundedBits N D < 0x7FF * 2 ^ 52) :
    f64Signed (f64Round neg N D) =
      if neg then -((significand N D * 2 ^ excessBits N D : Nat) : Int)
      else (significand N D * 2 ^ excessBits N D : Nat) := by
  have hb : roundedBits N D < 2 ^ 63 := by omega
  rw [f64Round_of_finite h, f64Signed, f64OfBits_msb hb, roundedBits,
    f64OfBits_units (significand_le N D) (fun ht => le_significand ht) hb]

/-! ### Where rounding leaves the finite values -/

theorem below_midpoint {m n : Nat} (h : n ≤ m) : 2 ^ (53 + n) ≤ (2 ^ 54 - 1) * 2 ^ m := by
  rw [Nat.pow_add]
  exact Nat.mul_le_mul (by decide) (Nat.pow_le_pow_right (by decide) h)

theorem midpoint_below {m n : Nat} (h : m + 2 ≤ n) : (2 ^ 54 - 1) * 2 ^ m ≤ 2 ^ (52 + n) := by
  have hpow : 2 ^ 54 * 2 ^ m ≤ 2 ^ (52 + n) := by
    rw [← Nat.pow_add]
    exact Nat.pow_le_pow_right (by decide) (by omega)
  exact (Nat.mul_le_mul_right _ (by decide)).trans hpow

theorem midpoint_pos (m : Nat) : 0 < (2 ^ 54 - 1) * 2 ^ m :=
  Nat.mul_pos (by decide) (Nat.two_pow_pos m)

theorem integer_below_midpoint {n m e : Nat} (hn : n ≤ 2 ^ 53) (hm : m < e) :
    n * 2 ^ m < (2 ^ 54 - 1) * 2 ^ e :=
  Nat.mul_lt_mul'' (by omega) (Nat.pow_lt_pow_right (by decide) hm)

theorem midpoint_doubled (D m : Nat) :
    D * 2 ^ (m + 1) * (2 * (2 ^ 53 - 1) + 1) = 2 * (D * ((2 ^ 54 - 1) * 2 ^ m)) := by
  rw [Nat.pow_succ]
  ring

/-- The rounded bits are those of a finite value exactly below the midpoint of the largest finite value and
2^1024. -/
theorem roundedBits_lt_iff {N D : Nat} (hD : 0 < D) :
    roundedBits N D < 0x7FF * 2 ^ 52 ↔ N < D * ((2 ^ 54 - 1) * 2 ^ 2044) := by
  have hk := significand_le N D
  rcases Nat.lt_trichotomy (excessBits N D) 2045 with hlt | heq | hgt
  · have hN : N < D * 2 ^ (53 + excessBits N D) := by
      rw [Nat.mul_comm, ← Nat.div_lt_iff_lt_mul hD]
      exact quotient_lt N D
    have hmid := below_midpoint (Nat.le_of_lt_succ hlt)
    exact iff_of_true (by rw [roundedBits]; omega) (hN.trans_le (Nat.mul_le_mul_left D hmid))
  · have hbits : roundedBits N D < 0x7FF * 2 ^ 52 ↔ significand N D ≤ 2 ^ 53 - 1 := by
      rw [roundedBits, heq]
      omega
    have hscale := midpoint_doubled D 2044
    rw [hbits, significand, heq, divNearestEven_le_iff (by positivity) (by decide), hscale]
    omega
  · have hN : D * 2 ^ (52 + excessBits N D) ≤ N := by
      rw [Nat.mul_comm, ← Nat.le_div_iff_mul_le hD]
      exact le_quotient (by omega)
    have hmid := midpoint_below (Nat.succ_le_of_lt hgt)
    have hle := le_significand (N := N) (D := D) (by omega)
    exact iff_of_false (by rw [roundedBits]; omega) (Nat.not_lt.mpr ((Nat.mul_le_mul_left D hmid).trans hN))

end Sys2Proof.Machine
end

section
/-! SUPPORT. Why no other binary64 value is nearer to a ratio than the rounded one; and the statement of
00_scope.md section 4 about the arithmetic. -/

namespace Sys2Proof.Machine

/-! ### No other value is nearer -/

/-- The values of an exponent are the multiples of its unit, and below `2^(52+t)` the units are finer. -/
theorem f64Units_grid (y : F64) (t : Nat) : 2 ^ t ∣ f64Units y ∨ f64Units y < 2 ^ (52 + t) := by
  have hfrac : f64Fraction y < 2 ^ 52 := Nat.mod_lt _ (by decide)
  rw [f64Units]
  split
  · exact .inr (hfrac.trans_le (Nat.pow_le_pow_right (by decide) (by omega)))
  · rename_i hexp
    rcases le_or_gt t (f64Exponent y - 1) with hcoarse | hfine
    · exact .inl ((Nat.pow_dvd_pow 2 hcoarse).mul_left _)
    · right
      calc (2 ^ 52 + f64Fraction y) * 2 ^ (f64Exponent y - 1)
        _ < 2 ^ 53 * 2 ^ (f64Exponent y - 1) := Nat.mul_lt_mul_of_pos_right (by omega) (by positivity)
        _ ≤ 2 ^ (52 + t) := by
          rw [← Nat.pow_add]
          exact Nat.pow_le_pow_right (by decide) (by omega)

/-- Among the multiples of the unit none is nearer than the rounded one, and another as near leaves it
even. -/
theorem near_of_multiple (N : Nat) {D : Nat} (hD : 0 < D) (j : Int) :
    ((N : Int) - D * divNearestEven N D).natAbs ≤ ((N : Int) - D * j).natAbs ∧
      (j ≠ divNearestEven N D → ((N : Int) - D * j).natAbs = ((N : Int) - D * divNearestEven N D).natAbs →
        divNearestEven N D % 2 = 0) := by
  obtain ⟨hnear, heven⟩ := divNearestEven_near N hD
  by_cases hj : j = divNearestEven N D
  · subst hj
    exact ⟨le_refl _, fun h => absurd rfl h⟩
  have hgap : (D : Int) ≤ ((D : Int) * divNearestEven N D - D * j).natAbs := by
    rw [← mul_sub, Int.natAbs_mul, Int.natAbs_natCast]
    have hpos : 1 ≤ ((divNearestEven N D : Int) - j).natAbs := by omega
    exact_mod_cast Nat.le_mul_of_pos_right D hpos
  constructor
  · omega
  · intro _ htie
    exact heven (by omega)

/-- Among the values of binary64's grid none is nearer to a ratio than the rounded one, and another as near
leaves its significand even. -/
theorem near_of_grid (N : Nat) {D : Nat} (hD : 0 < D) {z : Int}
    (hz : 2 ^ excessBits N D ∣ z.natAbs ∨ z.natAbs < 2 ^ (52 + excessBits N D)) :
    ((N : Int) - D * (significand N D * 2 ^ excessBits N D : Nat)).natAbs ≤ ((N : Int) - D * z).natAbs ∧
      (z ≠ (significand N D * 2 ^ excessBits N D : Nat) →
        ((N : Int) - D * z).natAbs =
          ((N : Int) - D * (significand N D * 2 ^ excessBits N D : Nat)).natAbs →
          significand N D % 2 = 0) := by
  have hD' : 0 < D * 2 ^ excessBits N D := by positivity
  have hscale : ∀ j : Int, (D * 2 ^ excessBits N D : Nat) * j = D * (2 ^ excessBits N D * j) := fun j => by
    push_cast
    ring
  have hround : (D : Int) * (significand N D * 2 ^ excessBits N D : Nat) =
      (D * 2 ^ excessBits N D : Nat) * divNearestEven N (D * 2 ^ excessBits N D) := by
    rw [hscale, significand]
    push_cast
    ring
  rw [hround]
  by_cases hmultiple : 2 ^ excessBits N D ∣ z.natAbs
  · obtain ⟨j, rfl⟩ : (2 ^ excessBits N D : Int) ∣ z := by
      rw [← Int.natAbs_dvd_natAbs]
      simpa [Int.natAbs_pow] using hmultiple
    obtain ⟨hnear, heven⟩ := near_of_multiple N hD' j
    rw [← hscale]
    refine ⟨hnear, fun hne => heven ?_⟩
    rintro rfl
    refine hne ?_
    rw [significand]
    push_cast
    ring
  · have hfine := hz.resolve_left hmultiple
    have ht : 0 < excessBits N D := by
      refine Nat.pos_of_ne_zero fun h0 => hmultiple ?_
      rw [h0]
      exact one_dvd _
    have hN : D * 2 ^ (52 + excessBits N D) ≤ N := by
      rw [Nat.mul_comm, ← Nat.le_div_iff_mul_le hD]
      exact le_quotient ht
    have hleast := (near_of_multiple N hD' (2 ^ 52)).1
    have hgrid : ((D * 2 ^ excessBits N D : Nat) : Int) * 2 ^ 52 = (D * 2 ^ (52 + excessBits N D) : Nat) := by
      push_cast
      ring
    have hbelow : (D : Int) * z < (D * 2 ^ (52 + excessBits N D) : Nat) := by
      have hz' : z < (2 ^ (52 + excessBits N D) : Nat) :=
        Int.le_natAbs.trans_lt (Int.ofNat_lt.mpr hfine)
      rw [Nat.cast_mul]
      exact mul_lt_mul_of_pos_left hz' (by exact_mod_cast hD)
    rw [hgrid] at hleast
    omega

/-! ### Rounding with a sign -/

/-- The number with a sign put before it. -/
def withSign (neg : Bool) (z : Int) : Int := if neg then -z else z

theorem withSign_withSign (neg : Bool) (z : Int) : withSign neg (withSign neg z) = z := by
  cases neg
  · rfl
  · exact neg_neg z

theorem natAbs_withSign (neg : Bool) (z : Int) : (withSign neg z).natAbs = z.natAbs := by
  cases neg
  · rfl
  · exact Int.natAbs_neg z

/-- A distance is the same on both sides of 0. -/
theorem natAbs_withSign_sub (neg : Bool) (N D y : Int) :
    (withSign neg N - D * y).natAbs = (N - D * withSign neg y).natAbs := by
  cases neg
  · rfl
  · rw [← Int.natAbs_neg]
    congr 1
    simp only [withSign, if_true]
    ring

theorem natAbs_f64Signed (y : F64) : (f64Signed y).natAbs = f64Units y := by
  unfold f64Signed
  split <;> simp

/-- Rounding is to nearest, ties to even, on both sides of 0 (R13). -/
theorem f64Round_nearestEven (neg : Bool) (N : Nat) {D : Nat} (hD : 0 < D) :
    NearestEven (withSign neg N) D (f64Round neg N D) := by
  have hfinite : f64Finite (f64Round neg N D) = true ↔ N < D * ((2 ^ 54 - 1) * 2 ^ 2044) :=
    f64Finite_f64Round.trans (roundedBits_lt_iff hD)
  have hsigned : f64Finite (f64Round neg N D) = true →
      withSign neg (f64Signed (f64Round neg N D)) = (significand N D * 2 ^ excessBits N D : Nat) :=
    fun h => by
      rw [f64Signed_f64Round (f64Finite_f64Round.mp h)]
      exact withSign_withSign neg _
  have hgrid : ∀ y, 2 ^ excessBits N D ∣ (withSign neg (f64Signed y)).natAbs ∨
      (withSign neg (f64Signed y)).natAbs < 2 ^ (52 + excessBits N D) := fun y => by
    rw [natAbs_withSign, natAbs_f64Signed]
    exact f64Units_grid y _
  refine ⟨?finite, fun h y _ => ?nearest, fun h y _ hne htie => ?even, fun h => ?infinite⟩
  case finite => rw [natAbs_withSign, Int.natAbs_natCast, hfinite]
  case nearest =>
    rw [natAbs_withSign_sub, natAbs_withSign_sub, hsigned h]
    exact (near_of_grid N hD (hgrid y)).1
  case even =>
    rw [natAbs_withSign_sub, natAbs_withSign_sub, hsigned h] at htie
    have hother : withSign neg (f64Signed y) ≠ (significand N D * 2 ^ excessBits N D : Nat) := fun heq =>
      hne (by rw [← withSign_withSign neg (f64Signed y), heq, ← hsigned h, withSign_withSign])
    have heven := (near_of_grid N hD (hgrid y)).2 hother htie
    have hbits := f64Finite_f64Round.mp h
    rw [f64Round_of_finite hbits, f64OfBits_toNat (by omega), roundedBits, f64SignBit]
    split <;> omega
  case infinite =>
    have hbits : ¬ roundedBits N D < 0x7FF * 2 ^ 52 := fun hlt => by
      simp [f64Finite_f64Round.mpr hlt] at h
    have hpos : 0 < N := by
      refine Nat.pos_of_ne_zero fun h0 => ?_
      have hmid : 0 < D * ((2 ^ 54 - 1) * 2 ^ 2044) :=
        Nat.mul_pos hD (midpoint_pos 2044)
      rw [hfinite.mpr (h0 ▸ hmid)] at h
      cases h
    have hneg : decide (withSign neg N < 0) = neg := by
      cases neg <;> simp [withSign, hpos]
    rw [hneg, f64Round_eq_f64OfBits, Nat.min_eq_right (Nat.le_of_not_lt hbits)]
    rfl

/-! ### The operations -/

theorem f64Signed_eq_withSign (x : F64) : f64Signed x = withSign x.msb (f64Units x) := rfl

theorem withSign_mul (a b : Bool) (x y : Int) :
    withSign a x * withSign b y = withSign (a ^^ b) (x * y) := by
  cases a <;> cases b <;> simp [withSign]

theorem fmul_nearestEven {x y : F64} (hx : f64Finite x = true) (hy : f64Finite y = true) :
    NearestEven (f64Signed x * f64Signed y) (2 ^ 1074) (fmul x y) := by
  have h := f64Round_nearestEven (x.msb ^^ y.msb) (f64Units x * f64Units y) (D := 2 ^ 1074) (by positivity)
  rw [Nat.cast_mul, ← withSign_mul, ← f64Signed_eq_withSign, ← f64Signed_eq_withSign] at h
  rw [fmul, hx, hy]
  exact h

/-- A number is its magnitude with its sign, whichever sign 0 is given. -/
theorem withSign_natAbs (neg : Bool) (z : Int) :
    withSign (if z = 0 then neg else decide (z < 0)) z.natAbs = z := by
  unfold withSign
  by_cases h0 : z = 0
  · simp [h0]
  · by_cases hneg : z < 0
    · simp only [h0, hneg, if_false, decide_true, if_true]
      omega
    · simp only [h0, hneg, if_false, decide_false, Bool.false_eq_true]
      omega

theorem fadd_nearestEven {x y : F64} (hx : f64Finite x = true) (hy : f64Finite y = true) :
    NearestEven (f64Signed x + f64Signed y) 1 (fadd x y) := by
  have h := f64Round_nearestEven
    (if f64Signed x + f64Signed y = 0 then x.msb && y.msb else decide (f64Signed x + f64Signed y < 0))
    (f64Signed x + f64Signed y).natAbs (D := 1) (by decide)
  rw [withSign_natAbs] at h
  rw [fadd, hx, hy]
  exact h

/-- Negation changes the sign bit alone. -/
theorem f64Neg_fields (y : F64) :
    (f64Neg y).msb = !y.msb ∧ (f64Neg y).toNat % 2 ^ 63 = y.toNat % 2 ^ 63 := by
  have hlow : (f64Neg y).setWidth 63 = y.setWidth 63 := by
    rw [f64Neg, BitVec.setWidth_xor]
    exact BitVec.xor_zero
  refine ⟨?_, ?_⟩
  · rw [f64Neg, BitVec.msb_xor]
    exact Bool.xor_true _
  · rw [← BitVec.toNat_setWidth, ← BitVec.toNat_setWidth, hlow]

theorem f64Neg_exponent (y : F64) : f64Exponent (f64Neg y) = f64Exponent y := by
  rw [f64Exponent, (f64Neg_fields y).2, f64Exponent]

theorem f64Neg_units (y : F64) : f64Units (f64Neg y) = f64Units y := by
  have hfrac : f64Fraction (f64Neg y) = f64Fraction y := by
    have hlow := (f64Neg_fields y).2
    rw [f64Fraction, f64Fraction]
    omega
  rw [f64Units, f64Neg_exponent, hfrac, f64Units]

theorem f64Neg_finite (y : F64) : f64Finite (f64Neg y) = f64Finite y := by
  rw [f64Finite, f64Neg_exponent, f64Finite]

theorem f64Signed_f64Neg (y : F64) : f64Signed (f64Neg y) = -f64Signed y := by
  rw [f64Signed, f64Neg_units, (f64Neg_fields y).1, f64Signed]
  cases y.msb <;> simp

theorem fsub_nearestEven {x y : F64} (hx : f64Finite x = true) (hy : f64Finite y = true) :
    NearestEven (f64Signed x - f64Signed y) 1 (fsub x y) := by
  have h := fadd_nearestEven hx ((f64Neg_finite y).trans hy)
  rwa [f64Signed_f64Neg, ← sub_eq_add_neg] at h

theorem f64Dec_nearestEven (digits places : Nat) :
    NearestEven (digits * 2 ^ 1074) (10 ^ places) (f64Dec digits places) := by
  have h := f64Round_nearestEven false (digits * 2 ^ 1074) (D := 10 ^ places) (by positivity)
  rw [Nat.cast_mul, Nat.cast_pow] at h
  exact h

/-! ### Integers and floor -/

theorem divNearestEven_of_dvd {N D : Nat} (hD : 0 < D) (h : D ∣ N) : divNearestEven N D = N / D := by
  have hr : N % D = 0 := Nat.mod_eq_zero_of_dvd h
  rcases divNearestEven_cases N D with ⟨hk, -⟩ | ⟨-, hhalf⟩
  · exact hk
  · omega

/-- A ratio that the unit of its exponent divides is not rounded. -/
theorem significand_of_dvd {N D : Nat} (hD : 0 < D) (h : D * 2 ^ excessBits N D ∣ N) :
    significand N D * 2 ^ excessBits N D * D = N := by
  rw [significand, divNearestEven_of_dvd (by positivity) h, Nat.mul_assoc, Nat.mul_comm (2 ^ _) D]
  exact Nat.div_mul_cancel h

/-- An integer up to 2^53 times a power of 2 has no bit below the 53 kept. -/
theorem excessBits_dvd {n : Nat} (hn : n ≤ 2 ^ 53) (m : Nat) :
    2 ^ excessBits (n * 2 ^ m) 1 ∣ n * 2 ^ m := by
  rcases Nat.lt_or_eq_of_le hn with hlt | rfl
  · have hlen : bitLength (n * 2 ^ m) ≤ 53 + m := by
      rw [bitLength_le_iff, Nat.pow_add]
      exact Nat.mul_lt_mul_of_pos_right hlt (Nat.two_pow_pos m)
    have hexcess : excessBits (n * 2 ^ m) 1 ≤ m := by
      rw [excessBits, Nat.div_one]
      omega
    exact (Nat.pow_dvd_pow 2 hexcess).mul_left n
  · rw [← Nat.pow_add]
    have hlen : bitLength (2 ^ (53 + m)) ≤ 53 + m + 1 :=
      bitLength_le_iff.mpr (Nat.pow_lt_pow_right (by decide) (Nat.lt_succ_self _))
    refine Nat.pow_dvd_pow 2 ?_
    rw [excessBits, Nat.div_one]
    omega

/-- An integer up to 2^53 times a power of 2 in the range of the exponents is exact. -/
theorem f64Round_exact {n m : Nat} (hn : n ≤ 2 ^ 53) (hm : m < 2044) :
    f64Signed (f64Round false (n * 2 ^ m) 1) = n * 2 ^ m := by
  have hbelow : n * 2 ^ m < 1 * ((2 ^ 54 - 1) * 2 ^ 2044) := by
    rw [Nat.one_mul]
    exact integer_below_midpoint hn hm
  have hexact := significand_of_dvd Nat.one_pos (by rw [Nat.one_mul]; exact excessBits_dvd hn m)
  rw [Nat.mul_one] at hexact
  rw [f64Signed_f64Round ((roundedBits_lt_iff Nat.one_pos).mpr hbelow), hexact, Nat.cast_mul, Nat.cast_pow]
  rfl

/-- An integer up to 2^53 is a number of units that its significand holds in full. -/
theorem f64OfNat_exact {n : Nat} (hn : n ≤ 2 ^ 53) : f64Signed (f64OfNat n) = n * 2 ^ 1074 :=
  f64Round_exact hn (by decide)

/-- `floor` of a finite value is its exact floor (R12). -/
theorem f64Floor_bounds (x : F64) :
    f64Floor x * 2 ^ 1074 ≤ f64Signed x ∧ f64Signed x < (f64Floor x + 1) * 2 ^ 1074 := by
  have hpos : (0 : Int) < 2 ^ 1074 := by positivity
  rw [f64Floor, Nat.cast_pow]
  exact ⟨Int.ediv_mul_le _ hpos.ne', Int.lt_ediv_add_one_mul_self _ hpos⟩

/-- Settles O58: every operation is one rounding of its exact result, and the rounding is to nearest. -/
theorem roundingIsToNearest : Obligations.RoundingIsToNearest :=
  ⟨fun neg num _ hden => f64Round_nearestEven neg num hden,
    fun _ _ hx hy => ⟨fmul_nearestEven hx hy, fadd_nearestEven hx hy, fsub_nearestEven hx hy⟩,
    f64Dec_nearestEven, fun _ hn => f64OfNat_exact hn, fun x _ => f64Floor_bounds x⟩

end Sys2Proof.Machine
end
